-- ==== Sys2Proof/Word.lean ====
section
/-!
DEFINITION. The widths of the block (spec/00_scope.md R8, R9, R11): colour bytes and configuration enums are
8 bits, the three counts 16 bits, command words, response words and the cursor 32 bits. Bit 0 is the least
significant bit; every value is unsigned.
-/

namespace Sys2Proof

/-- An 8-bit value: a colour byte, an output byte, a pulse template or a configuration enum (R8, R9). -/
abbrev Byte := BitVec 8

/-- A 16-bit count: guard bytes before or after the data, or LEDs (R9, R58). -/
abbrev Half := BitVec 16

/-- A 32-bit word: a command, a response or the cursor (R9). -/
abbrev Word := BitVec 32

end Sys2Proof
end

