-- ==== Sys2Proof/Syntax.lean ====
section
/-!
DEFINITION. The commands of the block, one constructor per row of spec/opcode_table.json (spec/30_encoding.md
R53), and the assembler's source commands (R60), whose immediates are numbers of any size until they are checked.
-/

namespace Sys2Proof

/-- A command (R53). The eight SET commands carry the immediate their format gives them: IMM8 in format C8, IMM16
in format C16 (R50, R51); the other six carry nothing (format C0). Every term is an encodable command. -/
inductive Instr where
  | setpack (imm : Byte)
  | setpl0 (imm : Byte)
  | setpl1 (imm : Byte)
  | setfb0 (imm : Byte)
  | setord (imm : Byte)
  | setpre (imm : Half)
  | setsuf (imm : Half)
  | setcnt (imm : Half)
  | init
  | reqlen
  | fill
  | restart
  | isfin
  | next
deriving DecidableEq, Repr

/-- The symbols that may stand for a configuration value (R56, R57). -/
inductive Symbol where
  | single | double
  | run1 | run2 | run3 | run4 | run5 | run6 | run7
  | disabled | enabled
  | lsbFirst | msbFirst
deriving DecidableEq, Repr

/-- An 8-bit operand as the assembler reads it: a number of any size or a symbol (R60). -/
inductive Operand where
  | number (n : Nat)
  | symbol (s : Symbol)
deriving DecidableEq, Repr

/-- One line of assembly, pseudo-instructions included (R60), before its immediates are checked. -/
inductive Source where
  | setpack (x : Operand)
  | setpl0 (x : Operand)
  | setpl1 (x : Operand)
  | setfb0 (x : Operand)
  | setord (x : Operand)
  | setpre (n : Nat)
  | setsuf (n : Nat)
  | setcnt (n : Nat)
  | init
  | reqlen
  | fill
  | restart
  | isfin
  | next
  | configure (packing pl0 pl1 fb0 order : Operand) (prefixLen suffixLen count : Nat)
  | drain (n : Nat)
deriving DecidableEq, Repr

end Sys2Proof
end

