-- ==== Sys2Proof/WellFormed.lean ====
section
/-!
DEFINITION. Which source commands are well formed (spec/30_encoding.md R60): a number fits its field and a symbol
stands at a command whose line of R60 lists it. A command of `Instr` needs no check: its immediate has the width of
its field (R51), so every term of `Instr` is well formed.
-/

namespace Sys2Proof

/-- The configuration field an 8-bit operand belongs to. -/
inductive Field where
  | packing | pulseLen | firstBit | order
deriving DecidableEq, Repr

/-- The field whose line of R60 lists the symbol (R56, R57). -/
def Symbol.field : Symbol → Field
  | .single | .double => .packing
  | .run1 | .run2 | .run3 | .run4 | .run5 | .run6 | .run7 => .pulseLen
  | .disabled | .enabled => .firstBit
  | .lsbFirst | .msbFirst => .order

/-- A number fits 8 bits; a symbol belongs to the field (R60). -/
def Operand.wellFormed (f : Field) : Operand → Bool
  | .number n => n ≤ 0xFF
  | .symbol s => s.field = f

/-- "An immediate that does not fit its field (above 0xFF for C8, above 0xFFFF for C16) is an assembly error, not a
command" (R60). DRAIN's count is no immediate and has no bound. -/
def Source.wellFormed : Source → Bool
  | .setpack x => x.wellFormed .packing
  | .setpl0 x => x.wellFormed .pulseLen
  | .setpl1 x => x.wellFormed .pulseLen
  | .setfb0 x => x.wellFormed .firstBit
  | .setord x => x.wellFormed .order
  | .setpre n => n ≤ 0xFFFF
  | .setsuf n => n ≤ 0xFFFF
  | .setcnt n => n ≤ 0xFFFF
  | .init | .reqlen | .fill | .restart | .isfin | .next => true
  | .configure pk l0 l1 f o p q n =>
    pk.wellFormed .packing && l0.wellFormed .pulseLen && l1.wellFormed .pulseLen && f.wellFormed .firstBit
      && o.wellFormed .order && p ≤ 0xFFFF && q ≤ 0xFFFF && n ≤ 0xFFFF
  | .drain _ => true

end Sys2Proof
end

