-- ==== Sys2Proof/Decode.lean ====
section
/-!
DEFINITION. The decoder of spec/30_encoding.md R54, total on all 2^32 words and refusing by name, and after it the
encoder of R50 and R60.
-/

namespace Sys2Proof

/-- Why a word is no command (R55). Either way the block raises `Fault(IllegalCommand)`. -/
inductive DecodeError where
  /-- The opcode is none of R53's table. -/
  | reservedOpcode
  /-- The opcode is known, and a bit its format requires to be zero is set. -/
  | mustBeZero
deriving DecidableEq, Repr

/-- `OP`: bits 31:24 (R50). -/
def opField (w : Word) : Byte := w.extractLsb' 24 8

/-- `IMM8`: bits 7:0, unsigned, not scaled (R51). -/
def imm8Field (w : Word) : Byte := w.extractLsb' 0 8

/-- `IMM16`: bits 15:0, unsigned, not scaled (R51). -/
def imm16Field (w : Word) : Half := w.extractLsb' 0 16

/-- A word of format C8: bits 23:8 must be zero (R50, R54). -/
def decodeC8 (mk : Byte → Instr) (w : Word) : Except DecodeError Instr :=
  if w.extractLsb' 8 16 = 0#16 then .ok (mk (imm8Field w)) else .error .mustBeZero

/-- A word of format C16: bits 23:16 must be zero (R50, R54). -/
def decodeC16 (mk : Half → Instr) (w : Word) : Except DecodeError Instr :=
  if w.extractLsb' 16 8 = 0#8 then .ok (mk (imm16Field w)) else .error .mustBeZero

/-- A word of format C0: bits 23:0 must be zero (R50, R54). -/
def decodeC0 (i : Instr) (w : Word) : Except DecodeError Instr :=
  if w.extractLsb' 0 24 = 0#24 then .ok i else .error .mustBeZero

/-- The decoder of R54, over the opcodes of R53; every opcode not listed is reserved (R55). -/
def decode (w : Word) : Except DecodeError Instr :=
  match (opField w).toNat with
  | 0x10 => decodeC8 .setpack w
  | 0x11 => decodeC8 .setpl0 w
  | 0x12 => decodeC8 .setpl1 w
  | 0x13 => decodeC8 .setfb0 w
  | 0x14 => decodeC8 .setord w
  | 0x15 => decodeC16 .setpre w
  | 0x16 => decodeC16 .setsuf w
  | 0x17 => decodeC16 .setcnt w
  | 0x20 => decodeC0 .init w
  | 0x30 => decodeC0 .reqlen w
  | 0x31 => decodeC0 .fill w
  | 0x32 => decodeC0 .restart w
  | 0x33 => decodeC0 .isfin w
  | 0x34 => decodeC0 .next w
  | _ => .error .reservedOpcode

/-- The command word of an `nbits`-bit row whose bits are `w`, numbered as spec/opcode_table.json numbers them. Every
command is one 32-bit word (R50); bits at and above `nbits` are zero. -/
def tableWord (nbits w : Nat) : Word := BitVec.ofNat 32 (w % 2 ^ nbits)

/-- What the decoder reads from the word `w` of a row of `nbits` bits. -/
def decodeTableWord (nbits w : Nat) : Option Instr :=
  match decode (tableWord nbits w) with
  | .ok i => some i
  | .error _ => none

/-- "(OP << 24) | IMM" (R60). -/
def encodeWord (op : Byte) (imm : Word) : Word := (op.setWidth 32 <<< 24) ||| imm

/-- A word of format C8: IMM8 in bits 7:0, bits 23:8 zero (R50). -/
def encodeC8 (op imm : Byte) : Word := encodeWord op (imm.setWidth 32)

/-- A word of format C16: IMM16 in bits 15:0, bits 23:16 zero (R50). -/
def encodeC16 (op : Byte) (imm : Half) : Word := encodeWord op (imm.setWidth 32)

/-- A word of format C0: bits 23:0 zero (R50). -/
def encodeC0 (op : Byte) : Word := encodeWord op 0

/-- The word of a command, with the opcodes of R53. -/
def encode : Instr → Word
  | .setpack v => encodeC8 0x10 v
  | .setpl0 v => encodeC8 0x11 v
  | .setpl1 v => encodeC8 0x12 v
  | .setfb0 v => encodeC8 0x13 v
  | .setord v => encodeC8 0x14 v
  | .setpre v => encodeC16 0x15 v
  | .setsuf v => encodeC16 0x16 v
  | .setcnt v => encodeC16 0x17 v
  | .init => encodeC0 0x20
  | .reqlen => encodeC0 0x30
  | .fill => encodeC0 0x31
  | .restart => encodeC0 0x32
  | .isfin => encodeC0 0x33
  | .next => encodeC0 0x34

end Sys2Proof
end

