-- ==== Sys2Proof/Config.lean ====
section
/-!
DEFINITION. What the spec leaves to an implementation or to the host: the two open size parameters as they stand in
`State.reset`, and the free value of an LED byte nobody has written.
-/

namespace Sys2Proof

/-- `LED_CAP` in `State.reset` (spec/00_scope.md R10, 93 U15). DESIGN CHOICE, unsafe, log entry 2: the largest LED
count a command can set, so that no count alone makes a run from `State.reset` fault. `State` holds the parameter, and
statements over all states hold for every value of it. -/
def Config.ledCap : Nat := 65535

/-- `OUT_SIZE` in `State.reset` (R10, 93 U14). DESIGN CHOICE, unsafe, log entry 2: the longest stream there is
(65535 + 24 × 65535 + 65535, R9). `State` holds the parameter, and statements over all states hold for every value
of it. -/
def Config.outSize : Nat := 1703910

/-- FREE VALUE, safe, log entry 1: what the LED byte at an address reads as before the host has written it. The spec
says "any value" (93_implementation_defined.md U10), and reads are idempotent (R40), so it depends on the address
alone. It has no body: nothing can be proved about its value. -/
opaque Config.ledByte : Nat → Byte

end Sys2Proof
end

