-- ==== Sys2Proof/Machine/State.lean ====
section
/-!
DEFINITION. The state of the block and of its host (spec/10_state.md R15 to R23, spec/20_memory.md R29 and R31,
spec/30_encoding.md R52), the reasons a step can stop, and the state after reset (spec/70_reset_and_hazards.md R108).
-/

namespace Sys2Proof.Machine

/-- A byte-addressed memory: the written bytes, by rising address. An address not listed holds no byte the model
knows: nobody has written it. -/
abbrev Memory := List Host.Cell

/-- The canonical form: addresses strictly rising. An unlisted address reads as no byte, so no entry can equal what
an unlisted address reads as. -/
abbrev Memory.wf (m : Memory) : Prop := m.Pairwise (fun a b => a.1 < b.1)

/-- Every listed address lies below `n`, the size of the memory (R29, R31). -/
abbrev Memory.below (m : Memory) (n : Nat) : Prop := ∀ c ∈ m, c.1 < n

/-- The configuration record. The block holds two: the shadow registers the SET commands write (R16) and the latched
copy the last successful INIT took (R17). Widths: R9, R16. -/
structure Settings where
  packing   : Byte
  pl0       : Byte
  pl1       : Byte
  fb0       : Byte
  order     : Byte
  prefixLen : Half
  suffixLen : Half
  count     : Half
deriving DecidableEq, Repr

/-- Every configuration register after reset (R108). -/
def Settings.reset : Settings :=
  { packing := 0, pl0 := 0, pl1 := 0, fb0 := 0, order := 0, prefixLen := 0, suffixLen := 0, count := 0 }

/-- The kinds of fault a command raises (spec/60_exceptions.md R94). A fault of a command is no stop of the machine:
the command's step answers a next state whose `fault` records it. -/
inductive FaultKind where
  /-- The word is no command: reserved opcode or a non-zero must-be-zero bit (R54, R55). -/
  | illegalCommand
  /-- FILL, ISFIN or NEXT while `valid` is 0. -/
  | unconfigured
  /-- FILL of a stream longer than OUT. -/
  | bufferTooSmall
  /-- FILL or NEXT of an LED record that LED does not hold. -/
  | ledRange
deriving DecidableEq, Repr

/-- What the host does to the block, one action at a time (R43, R49), and reset (R95, R108). Reading OUT has no effect
(R49) and needs no action. -/
inductive HostAction where
  /-- Issue a command word on the command port. -/
  | command (w : Word)
  /-- Write one byte of LED between commands (R29). -/
  | writeLed (a : Nat) (v : Byte)
  /-- Write one byte of OUT between commands (R31). -/
  | writeOut (a : Nat) (v : Byte)
  /-- Reset the block (R108). -/
  | reset
deriving DecidableEq, Repr

/-- The block, its two host-owned memories, and what the host does next. -/
structure State where
  /-- The shadow configuration registers (R16). -/
  sh : Settings
  /-- The latched configuration (R17). -/
  cfg : Settings
  /-- The template of a logical 0 (R18). -/
  pulse0 : Byte
  /-- The template of a logical 1 (R18). -/
  pulse1 : Byte
  /-- 1 when the last INIT succeeded (R19). -/
  valid : Bool
  /-- The position in the virtual stream (R21). -/
  cursor : Word
  /-- The fault that ended the run, with the word that raised it (R23). -/
  fault : Option (FaultKind × Word)
  /-- The LED memory (R29). -/
  led : Memory
  /-- The output memory (R31). -/
  out : Memory
  /-- The parameter LED_CAP: how many 3-byte records LED holds (R10). No command changes it. -/
  ledCap : Nat
  /-- The parameter OUT_SIZE: how many bytes OUT holds (R10). No command changes it. -/
  outSize : Nat
  /-- The response of the last command; none before the first and after a command that faulted (R52). Log entry 3. -/
  resp : Option Word
  /-- The model's own field: what the host does from now on, next first (R43). Log entry 4. -/
  host : List HostAction
deriving DecidableEq, Repr

/-- The block after reset, with memories of the given sizes and contents (R108; R10: the sizes are arguments; R108:
reset does not touch LED and OUT) and a host that does `host` next. -/
def State.powerOn (ledCap outSize : Nat) (led out : Memory) (host : List HostAction) : State :=
  { sh := Settings.reset, cfg := Settings.reset, pulse0 := 0, pulse1 := 0, valid := false, cursor := 0, fault := none,
    led := led, out := out, ledCap := ledCap, outSize := outSize, resp := none, host := host }

/-- The machine right after reset (R108), no byte of LED or OUT written yet and the host silent. The two sizes are
`Config`'s (log entry 2). -/
def State.reset : State := State.powerOn Config.ledCap Config.outSize [] [] []

/-- Why the machine stops although the spec knows the situation. -/
inductive Fault where
  /-- Raised by `takeCommand` (so by `step`) when the host issues a command to a block whose `fault` is set: "a block
  whose `S.fault` is not `none` takes no further command (the run is over)" (R23, R95; 93 U7: stuck). Safe. -/
  | halted (kind : FaultKind) (word : Word)
  /-- Raised by `hostWriteLed` for an address LED does not have (R29). Safe. -/
  | noSuchLedAddress (a : Nat)
  /-- Raised by `hostWriteOut` for an address OUT does not have (R31). Safe. -/
  | noSuchOutAddress (a : Nat)
deriving DecidableEq, Repr

/-- What the model gives no meaning. -/
inductive Refusal where
  /-- Raised by an arm of `exec` for a command that has no meaning yet (none is left). Safe. -/
  | notModelled (mnemonic : String)
  /-- Raised by `nextData` (so by NEXT) for a DOUBLE data step at an odd bit index, which no state the commands
  produce reaches (R26): "a model may refuse it" (R86; 93 U9: refuse). Safe, log entry 5. -/
  | oddDoubleStep
deriving DecidableEq, Repr

end Sys2Proof.Machine
end

