-- ==== Sys2Proof/Machine/Ops.lean ====
section
/-!
DEFINITION. The named operations over memory and state: reading and writing bytes, answering a command, raising a
fault (spec/60_exceptions.md R94, R95), the reset that alone leaves it, and what the host does between commands.
-/

namespace Sys2Proof.Machine

/-- The byte the host or FILL last wrote at an address; none where nobody has written (log entry 1). -/
def memRead : Memory → Nat → Option Byte
  | [], _ => none
  | (b, v) :: m, a => if a = b then some v else memRead m a

/-- `MemWrite(M, a, 1, v)` (spec/00_scope.md R12): one byte, kept in address order. -/
def memWrite : Memory → Nat → Byte → Memory
  | [], a, v => [(a, v)]
  | (b, x) :: m, a, v =>
    if a < b then (a, v) :: (b, x) :: m
    else if a = b then (a, v) :: m
    else (b, x) :: memWrite m a v

/-- The bytes of a list at rising addresses from `a`, the first first (spec/20_memory.md R45). -/
def memWriteBytes : Memory → Nat → List Byte → Memory
  | m, _, [] => m
  | m, a, v :: vs => memWriteBytes (memWrite m a v) (a + 1) vs

/-- The shadow registers replaced (R16). -/
def State.setSh (c : Settings) (s : State) : State := { s with sh := c }

/-- The cursor replaced (R21). -/
def State.setCursor (c : Word) (s : State) : State := { s with cursor := c }

/-- The valid bit replaced (R19). -/
def State.setValid (b : Bool) (s : State) : State := { s with valid := b }

/-- What a successful INIT writes (R75): the latched configuration, the two templates, the cursor, the valid bit. -/
def State.latch (c : Settings) (p : Byte × Byte) (s : State) : State :=
  { s with cfg := c, pulse0 := p.1, pulse1 := p.2, cursor := 0, valid := true }

/-- The LED memory replaced (R29). -/
def State.setLed (m : Memory) (s : State) : State := { s with led := m }

/-- The output memory replaced (R31). -/
def State.setOut (m : Memory) (s : State) : State := { s with out := m }

/-- The host's further actions replaced (R43). -/
def State.setHost (h : List HostAction) (s : State) : State := { s with host := h }

/-- `resp <- v` (R12, R52). -/
def State.respond (v : Word) (s : State) : State := { s with resp := some v }

/-- What a fault leaves: its kind and the command word in `S.fault`, no response, nothing else (R23, R95). -/
def State.recordFault (k : FaultKind) (w : Word) (s : State) : State := { s with fault := some (k, w), resp := none }

/-- `raise Fault(kind)` by the command word `w` (R12, R94, R95, R99): the ONE operation that takes a fault. The fault
ends the run because the block takes no command from the state it leaves (`takeCommand`). -/
def raise (k : FaultKind) (w : Word) (s : State) : Host.Outcome State Fault Refusal := .next (s.recordFault k w)

/-- The check of `S.valid` that FILL, ISFIN and NEXT begin with (R94, R98). -/
def requireValid (i : Instr) (s : State) (body : Host.Outcome State Fault Refusal) :
    Host.Outcome State Fault Refusal :=
  if s.valid then body else raise .unconfigured (encode i) s

/-- Reset (R108): every register and the fault at its reset value, LED and OUT as they are; the one way out of a fault
(R95, R100). The response port shows nothing, and the host goes on with what it does next. -/
def resetBlock (s : State) : State := State.powerOn s.ledCap s.outSize s.led s.out s.host

/-- The host writes a byte of LED between commands (R29, R43). -/
def hostWriteLed (a : Nat) (v : Byte) (s : State) : Host.Outcome State Fault Refusal :=
  if a < 3 * s.ledCap then .next (s.setLed (memWrite s.led a v)) else .fault (.noSuchLedAddress a)

/-- The host writes a byte of OUT between commands (R31, R43). -/
def hostWriteOut (a : Nat) (v : Byte) (s : State) : Host.Outcome State Fault Refusal :=
  if a < s.outSize then .next (s.setOut (memWrite s.out a v)) else .fault (.noSuchOutAddress a)

/-- The host's next action is to issue the command word `w`. -/
def presentCommand (w : Word) (s : State) : State := s.setHost (.command w :: s.host)

end Sys2Proof.Machine
end

