-- ==== Sys2Proof/Machine/Operands.lean ====
section
/-!
DEFINITION. Operand forms. The only operands in a command word are IMM8 and IMM16, which decoding has assembled
(spec/30_encoding.md R51); the other operands are bytes of LED (spec/20_memory.md R30) and their bits (R34).
-/

namespace Sys2Proof.Machine

/-- The colour channels in the order they are sent (R33, spec/41_encoder.md R79). -/
inductive Channel where
  | green | red | blue
deriving DecidableEq, Repr

/-- "0=green,1=red,2=blue" (R79). Indexes are below 3 wherever one is computed, so the last arm is index 2. -/
def channelOf : Nat → Channel
  | 0 => .green
  | 1 => .red
  | _ => .blue

/-- Where a channel's byte lies in its record: red, green, blue (R30). -/
def channelOffset : Channel → Nat
  | .red => 0
  | .green => 1
  | .blue => 2

/-- `MemRead(LED, a, 1)` (R12, R40). A byte the host has not written is a free value (log entry 1). -/
def ledRead (s : State) (a : Nat) : Byte := (memRead s.led a).getD (Config.ledByte a)

/-- `chan(i, c)`: the byte of channel `c` of LED `i` (R30, R79). -/
def chan (s : State) (i : Nat) (c : Channel) : Byte := ledRead s (3 * i + channelOffset c)

/-- `v[i]`: bit `i`, bit 0 the least significant (spec/00_scope.md R11). -/
def bitAt (v : Byte) (i : Nat) : Bool := v.getLsbD i

/-- `zext_32(v)` (R11). -/
def zext32 (v : Byte) : Word := v.setWidth 32

end Sys2Proof.Machine
end

