-- ==== Sys2Proof/Machine/Pulse.lean ====
section
/-!
DEFINITION. The configuration validator and pulse compiler (spec/40_configuration.md R69 to R74): run masks, the
ordered checks, the two templates, and the wire picture of a byte.
-/

namespace Sys2Proof.Machine

/-- `runmask(n) = 2^n - 1` (spec/00_scope.md R12). -/
def runmask (n : Nat) : Byte := BitVec.ofNat 8 (2 ^ n - 1)

/-- The accepted run lengths (R8, R56). -/
def runLengths : List Nat := [1, 2, 3, 4, 5, 6, 7]

/-- `run(v)`: the `n` in 1..7 whose run mask is `v`; none, for a value that is no run mask (R12, R56). -/
def run (v : Byte) : Option Nat := runLengths.find? (fun n => runmask n = v)

/-- The longest run accepted for a logical 1 in DOUBLE packing (R71, D13; 93 U13 names it DOUBLE_MAX_RUN). -/
def doubleMaxRun : Nat := 3

/-- The outcomes of INIT (spec/30_encoding.md R59). -/
inductive Status where
  | ok
  | invalidPacking
  | invalidPulseLen0
  | invalidPulseLen1
  | invalidFirstBitFlag
  | invalidBitOrder
  | pulseOrderingViolation
  | pulseTooLongForPacking
deriving DecidableEq, Repr

/-- The status codes (R59). -/
def statusCode : Status → Byte
  | .ok => 0x00
  | .invalidPacking => 0x01
  | .invalidPulseLen0 => 0x02
  | .invalidPulseLen1 => 0x03
  | .invalidFirstBitFlag => 0x04
  | .invalidBitOrder => 0x05
  | .pulseOrderingViolation => 0x06
  | .pulseTooLongForPacking => 0x07

/-- The checks after both pulse lengths are known to be runs of `n0` and `n1` bits (R69 from its fourth check on). -/
def validateRuns (c : Settings) (n0 n1 : Nat) : Status :=
  if c.fb0 ≠ 0x00 ∧ c.fb0 ≠ 0x01 then .invalidFirstBitFlag
  else if c.order ≠ 0x00 ∧ c.order ≠ 0x01 then .invalidBitOrder
  else if n1 ≤ n0 then .pulseOrderingViolation
  else if c.packing = 0x01 ∧ doubleMaxRun < n1 then .pulseTooLongForPacking
  else .ok

/-- `validate` (R69): the first failing check in this order; the counts are not checked. -/
def validate (c : Settings) : Status :=
  if c.packing ≠ 0x00 ∧ c.packing ≠ 0x01 then .invalidPacking
  else
    match run c.pl0 with
    | none => .invalidPulseLen0
    | some n0 =>
      match run c.pl1 with
      | none => .invalidPulseLen1
      | some n1 => validateRuns c n0 n1

/-- `rev8(v)`: bit i goes to bit 7 - i (R12). -/
def rev8 (v : Byte) : Byte :=
  BitVec.ofBoolListBE [bitAt v 0, bitAt v 1, bitAt v 2, bitAt v 3, bitAt v 4, bitAt v 5, bitAt v 6, bitAt v 7]

/-- `rev4(v)`: of the 4 low bits, bit i goes to bit 3 - i (R12); the high bits of the result are 0. -/
def rev4 (v : Byte) : Byte :=
  BitVec.ofBoolListBE [false, false, false, false, bitAt v 0, bitAt v 1, bitAt v 2, bitAt v 3]

/-- The shift of the zero-prefix option (R72). -/
def firstBitShift (c : Settings) : Nat := if c.fb0 = 0x01 then 1 else 0

/-- The template of one pulse length: shifted by the zero-prefix option, then reversed for MSB_FIRST within the byte
(SINGLE) or the low nibble (DOUBLE) (R72). -/
def template (c : Settings) (l : Byte) : Byte :=
  if c.order = 0x01 then
    if c.packing = 0x00 then rev8 (l <<< firstBitShift c) else rev4 (l <<< firstBitShift c)
  else l <<< firstBitShift c

/-- `compile` (R72): the pair (pulse_0, pulse_1). -/
def compile (c : Settings) : Byte × Byte := (template c c.pl0, template c c.pl1)

/-- `tx(v, o)`: the bits a peripheral sends for byte `v`, first sent first (R74, spec/20_memory.md R36). No command
uses it: the block never serialises a byte. -/
def tx (v : Byte) (order : Byte) : List Bool :=
  if order = 0x00 then
    [bitAt v 0, bitAt v 1, bitAt v 2, bitAt v 3, bitAt v 4, bitAt v 5, bitAt v 6, bitAt v 7]
  else
    [bitAt v 7, bitAt v 6, bitAt v 5, bitAt v 4, bitAt v 3, bitAt v 2, bitAt v 1, bitAt v 0]

end Sys2Proof.Machine
end

