-- ==== Sys2Proof/Machine/Configuration.lean ====
section
/-!
DEFINITION. The meanings of the eight SET commands (spec/40_configuration.md R61 to R68) and of INIT (R75).
-/

namespace Sys2Proof.Machine

/-- What the SET commands share: the shadow record replaced, response 0, nothing else. -/
def setShadow (c : Settings) (s : State) : Host.Outcome State Fault Refusal := .next ((s.setSh c).respond 0)

/-- SETPACK (R61). -/
def execSetpack (v : Byte) (s : State) : Host.Outcome State Fault Refusal := setShadow { s.sh with packing := v } s

/-- SETPL0 (R62). -/
def execSetpl0 (v : Byte) (s : State) : Host.Outcome State Fault Refusal := setShadow { s.sh with pl0 := v } s

/-- SETPL1 (R63). -/
def execSetpl1 (v : Byte) (s : State) : Host.Outcome State Fault Refusal := setShadow { s.sh with pl1 := v } s

/-- SETFB0 (R64). -/
def execSetfb0 (v : Byte) (s : State) : Host.Outcome State Fault Refusal := setShadow { s.sh with fb0 := v } s

/-- SETORD (R65). -/
def execSetord (v : Byte) (s : State) : Host.Outcome State Fault Refusal := setShadow { s.sh with order := v } s

/-- SETPRE (R66). -/
def execSetpre (v : Half) (s : State) : Host.Outcome State Fault Refusal := setShadow { s.sh with prefixLen := v } s

/-- SETSUF (R67). -/
def execSetsuf (v : Half) (s : State) : Host.Outcome State Fault Refusal := setShadow { s.sh with suffixLen := v } s

/-- SETCNT (R68). -/
def execSetcnt (v : Half) (s : State) : Host.Outcome State Fault Refusal := setShadow { s.sh with count := v } s

/-- INIT (R75): a failed check clears the valid bit and answers its code (log entry 6 for what it keeps); a valid
shadow configuration is latched, compiled, and the cursor restarted. -/
def execInit (s : State) : Host.Outcome State Fault Refusal :=
  match validate s.sh with
  | .ok => .next ((s.latch s.sh (compile s.sh)).respond (zext32 (statusCode .ok)))
  | st => .next ((s.setValid false).respond (zext32 (statusCode st)))

end Sys2Proof.Machine
end

