-- ==== Sys2Proof/Machine/Flags.lean ====
section
/-!
DEFINITION. The block has no condition codes (spec/10_state.md R20). What stands in their place is computed from the
latched configuration: the two stream lengths, the zone of a cursor value and the predicate "finished".
-/

namespace Sys2Proof.Machine

/-- Output bytes per LED: 24 for SINGLE, 12 for every other packing value (spec/41_encoder.md R81, D21). -/
def bytesPerLed (packing : Byte) : Nat := if packing = 0x00 then 24 else 12

/-- The physical stream length `L` (R80, R82), and REQLEN's formula (R81). -/
def physLen (c : Settings) : Nat := c.prefixLen.toNat + c.count.toNat * bytesPerLed c.packing + c.suffixLen.toNat

/-- The virtual stream length `V`: SINGLE forced (R20, R84). -/
def virtLen (c : Settings) : Nat := c.prefixLen.toNat + 24 * c.count.toNat + c.suffixLen.toNat

/-- The four zones of a cursor value (R85). -/
inductive Zone where
  | prefixZone | dataZone | suffixZone | doneZone
deriving DecidableEq, Repr

/-- `zone(c)` (R85). -/
def zone (c : Settings) (pos : Nat) : Zone :=
  if pos < c.prefixLen.toNat then .prefixZone
  else if pos < c.prefixLen.toNat + 24 * c.count.toNat then .dataZone
  else if pos < virtLen c then .suffixZone
  else .doneZone

/-- "Finished": the cursor has reached the end of the virtual stream (R20, R84). -/
def finished (s : State) : Bool := virtLen s.cfg ≤ s.cursor.toNat

end Sys2Proof.Machine
end

