-- ==== Sys2Proof/Machine/Encoder.lean ====
section
/-!
DEFINITION. The byte encoding and the stream (spec/41_encoder.md R77 to R80): one template per colour bit, two
nibbles per byte in DOUBLE packing, guard bytes around the data.
-/

namespace Sys2Proof.Machine

/-- `enc1(x)` (R77). -/
def enc1 (s : State) (x : Bool) : Byte := if x then s.pulse1 else s.pulse0

/-- `{a[3:0], b[3:0]}`: the low nibble of `a` in bits 7:4, that of `b` in bits 3:0 (R11, R78). -/
def nibbles (a b : Byte) : Byte := (a.extractLsb' 0 4 : BitVec 4) ++ (b.extractLsb' 0 4 : BitVec 4)

/-- `enc2(x1, x2)`, `x1` sent first: in the low nibble for LSB_FIRST, in the high nibble otherwise (R78, D12). -/
def enc2 (s : State) (x1 x2 : Bool) : Byte :=
  if s.cfg.order = 0x00 then nibbles (enc1 s x2) (enc1 s x1) else nibbles (enc1 s x1) (enc1 s x2)

/-- One channel byte, most significant bit first: 8 bytes in SINGLE, 4 in DOUBLE packing (R34, R80). -/
def encodeChannel (s : State) (x : Byte) : List Byte :=
  if s.cfg.packing = 0x00 then
    [enc1 s (bitAt x 7), enc1 s (bitAt x 6), enc1 s (bitAt x 5), enc1 s (bitAt x 4),
     enc1 s (bitAt x 3), enc1 s (bitAt x 2), enc1 s (bitAt x 1), enc1 s (bitAt x 0)]
  else
    [enc2 s (bitAt x 7) (bitAt x 6), enc2 s (bitAt x 5) (bitAt x 4),
     enc2 s (bitAt x 3) (bitAt x 2), enc2 s (bitAt x 1) (bitAt x 0)]

/-- The bytes of LED `i`: green, red, blue (R33, R80). -/
def encodeLed (s : State) (i : Nat) : List Byte :=
  encodeChannel s (chan s i .green) ++ encodeChannel s (chan s i .red) ++ encodeChannel s (chan s i .blue)

/-- `n` guard bytes (spec/00_scope.md R8). -/
def guardBytes (n : Half) : List Byte := List.replicate n.toNat 0x00

/-- `stream(S, LED)` (R80). -/
def stream (s : State) : List Byte :=
  guardBytes s.cfg.prefixLen ++ (List.range s.cfg.count.toNat).flatMap (encodeLed s) ++ guardBytes s.cfg.suffixLen

end Sys2Proof.Machine
end

