-- ==== Sys2Proof/Machine/Streaming.lean ====
section
/-!
DEFINITION. The meanings of the five encoder commands (spec/41_encoder.md): REQLEN R81, FILL R82, RESTART R83, ISFIN
R84 and NEXT R86. Every check comes before the first write (spec/60_exceptions.md R98, R99).
-/

namespace Sys2Proof.Machine

/-- REQLEN (R81): the length for the SHADOW configuration, whatever the valid bit. -/
def execReqlen (s : State) : Host.Outcome State Fault Refusal := .next (s.respond (BitVec.ofNat 32 (physLen s.sh)))

/-- FILL (R82): the whole stream to OUT from address 0; the cursor stays (D20). -/
def execFill (s : State) : Host.Outcome State Fault Refusal :=
  requireValid .fill s <|
    if s.outSize < physLen s.cfg then raise .bufferTooSmall (encode .fill) s
    else if s.ledCap < s.cfg.count.toNat then raise .ledRange (encode .fill) s
    else .next ((s.setOut (memWriteBytes s.out 0 (stream s))).respond 0)

/-- RESTART (R83), whatever the valid bit (D16). -/
def execRestart (s : State) : Host.Outcome State Fault Refusal := .next ((s.setCursor 0).respond 0)

/-- ISFIN (R84). -/
def execIsfin (s : State) : Host.Outcome State Fault Refusal :=
  requireValid .isfin s (.next (s.respond (if finished s then 1 else 0)))

/-- The data zone of NEXT (R86) at offset `off` into the data: LED `off / 24`, channel `off mod 24 / 8`, bit index
`off mod 8`, 0 the most significant. A DOUBLE step at an odd bit index is refused (R86, 93 U9, log entry 5). -/
def nextData (off : Nat) (s : State) : Host.Outcome State Fault Refusal :=
  let i := off / 24
  let b := off % 8
  let x := chan s i (channelOf (off % 24 / 8))
  if s.ledCap ≤ i then raise .ledRange (encode .next) s
  else if s.cfg.packing = 0x00 then
    .next ((s.setCursor (s.cursor + 1)).respond (zext32 (enc1 s (bitAt x (7 - b)))))
  else if b % 2 = 0 then
    .next ((s.setCursor (s.cursor + 2)).respond (zext32 (enc2 s (bitAt x (7 - b)) (bitAt x (6 - b)))))
  else .refused .oddDoubleStep

/-- NEXT (R86): by the zone of the cursor (R85). -/
def execNext (s : State) : Host.Outcome State Fault Refusal :=
  requireValid .next s <|
    match zone s.cfg s.cursor.toNat with
    | .prefixZone => .next ((s.setCursor (s.cursor + 1)).respond 0)
    | .dataZone => nextData (s.cursor.toNat - s.cfg.prefixLen.toNat) s
    | .suffixZone => .next ((s.setCursor (s.cursor + 1)).respond 0)
    | .doneZone => .next (s.respond 0)

end Sys2Proof.Machine
end

