-- ==== Sys2Proof/Machine/Dispatch.lean ====
section
/-!
DEFINITION. One arm per command: exec is the meaning of a command the block has taken.
-/

namespace Sys2Proof.Machine

def exec (i : Instr) (s : State) : Host.Outcome State Fault Refusal :=
  match i with
  | .setpack v => Sys2Proof.Machine.execSetpack v s
  | .setpl0 v => Sys2Proof.Machine.execSetpl0 v s
  | .setpl1 v => Sys2Proof.Machine.execSetpl1 v s
  | .setfb0 v => Sys2Proof.Machine.execSetfb0 v s
  | .setord v => Sys2Proof.Machine.execSetord v s
  | .setpre v => Sys2Proof.Machine.execSetpre v s
  | .setsuf v => Sys2Proof.Machine.execSetsuf v s
  | .setcnt v => Sys2Proof.Machine.execSetcnt v s
  | .init => Sys2Proof.Machine.execInit s
  | .reqlen => Sys2Proof.Machine.execReqlen s
  | .fill => Sys2Proof.Machine.execFill s
  | .restart => Sys2Proof.Machine.execRestart s
  | .isfin => Sys2Proof.Machine.execIsfin s
  | .next => Sys2Proof.Machine.execNext s

end Sys2Proof.Machine
end

