-- ==== Sys2Proof/Machine/Port.lean ====
section
/-!
DEFINITION. The command port (spec/20_memory.md R43, R49; spec/60_exceptions.md R95, R98): taking a command word, and
performing one action of the host.
-/

namespace Sys2Proof.Machine

/-- The host issues the word `w`. A block whose fault is set takes no command (R23, R95). Decoding comes before every
other condition (R98), and a word that is no command raises IllegalCommand (R54, R55). -/
def takeCommand (w : Word) (s : State) : Host.Outcome State Fault Refusal :=
  match s.fault with
  | some (k, old) => .fault (.halted k old)
  | none =>
    match decode w with
    | .ok i => exec i s
    | .error _ => raise .illegalCommand w s

/-- One action of the host (R43, R49, R108). -/
def perform (a : HostAction) (s : State) : Host.Outcome State Fault Refusal :=
  match a with
  | .command w => takeCommand w s
  | .writeLed addr v => hostWriteLed addr v s
  | .writeOut addr v => hostWriteOut addr v s
  | .reset => .next (resetBlock s)

/-- The host's next action; with none the block waits: "between commands it holds its state and does nothing" (R107,
R109). -/
def performNext (s : State) : Host.Outcome State Fault Refusal :=
  match s.host with
  | [] => .next s
  | a :: rest => perform a (s.setHost rest)

end Sys2Proof.Machine
end

