-- ==== Sys2Proof/Machine/Step.lean ====
section
/-!
DEFINITION. One step of the machine: the host's next action (spec/20_memory.md R43), a command being one atomic step
(spec/00_scope.md R13).
-/

namespace Sys2Proof.Machine

/-- One step. -/
def step (s : State) : Host.Outcome State Fault Refusal := performNext s

/-- The host's next action is to issue the word whose bits are `w`: the block fetches nothing (spec/20_memory.md
R41), so this is where the next instruction comes from (log entry 4). -/
def State.withFetchWord (s : State) (nbits w : Nat) : State := presentCommand (tableWord nbits w) s

end Sys2Proof.Machine
end

