-- ==== Sys2Proof/Machine/Assembler.lean ====
section
/-!
DEFINITION. The assembler of spec/30_encoding.md R60: symbols, immediates, pseudo-instructions and their expansions,
and the text of one line. No step of the machine uses it. How a line is cut into words: log entry 9.
-/

namespace Sys2Proof.Machine

/-- The value of a symbol (R56, R57). -/
def symbolValue : Symbol → Nat
  | .single => 0x00
  | .double => 0x01
  | .run1 => 0x01
  | .run2 => 0x03
  | .run3 => 0x07
  | .run4 => 0x0F
  | .run5 => 0x1F
  | .run6 => 0x3F
  | .run7 => 0x7F
  | .disabled => 0x00
  | .enabled => 0x01
  | .lsbFirst => 0x00
  | .msbFirst => 0x01

/-- The IMM8 an operand stands for. -/
def operandValue : Operand → Byte
  | .number n => BitVec.ofNat 8 n
  | .symbol s => BitVec.ofNat 8 (symbolValue s)

/-- The commands of a line whose immediates fit, pseudo-instructions expanded in R60's order. -/
def expand : Source → List Instr
  | .setpack x => [.setpack (operandValue x)]
  | .setpl0 x => [.setpl0 (operandValue x)]
  | .setpl1 x => [.setpl1 (operandValue x)]
  | .setfb0 x => [.setfb0 (operandValue x)]
  | .setord x => [.setord (operandValue x)]
  | .setpre n => [.setpre (BitVec.ofNat 16 n)]
  | .setsuf n => [.setsuf (BitVec.ofNat 16 n)]
  | .setcnt n => [.setcnt (BitVec.ofNat 16 n)]
  | .init => [.init]
  | .reqlen => [.reqlen]
  | .fill => [.fill]
  | .restart => [.restart]
  | .isfin => [.isfin]
  | .next => [.next]
  | .configure pk l0 l1 f o p q n =>
    [.setpack (operandValue pk), .setpl0 (operandValue l0), .setpl1 (operandValue l1), .setfb0 (operandValue f),
     .setord (operandValue o), .setpre (BitVec.ofNat 16 p), .setsuf (BitVec.ofNat 16 q), .setcnt (BitVec.ofNat 16 n),
     .init]
  | .drain n => List.replicate n .next

/-- The words of a line; none for an assembly error (R60). -/
def assemble (x : Source) : Option (List Word) := if x.wellFormed then some ((expand x).map encode) else none

/-- The symbols as R60 spells them. -/
def symbolOf : String → Option Symbol
  | "SINGLE" => some .single
  | "DOUBLE" => some .double
  | "RUN1" => some .run1
  | "RUN2" => some .run2
  | "RUN3" => some .run3
  | "RUN4" => some .run4
  | "RUN5" => some .run5
  | "RUN6" => some .run6
  | "RUN7" => some .run7
  | "DISABLED" => some .disabled
  | "ENABLED" => some .enabled
  | "LSB_FIRST" => some .lsbFirst
  | "MSB_FIRST" => some .msbFirst
  | _ => none

/-- The value of a digit, hexadecimal ones in either case. -/
def digitValue (c : Char) : Option Nat :=
  if 48 ≤ c.toNat ∧ c.toNat ≤ 57 then some (c.toNat - 48)
  else if 65 ≤ c.toNat ∧ c.toNat ≤ 70 then some (c.toNat - 55)
  else if 97 ≤ c.toNat ∧ c.toNat ≤ 102 then some (c.toNat - 87)
  else none

/-- The number a list of digits spells in a base, after the digits already read as `acc`. -/
def digits (base : Nat) : Nat → List Char → Option Nat
  | acc, [] => some acc
  | acc, c :: cs =>
    match digitValue c with
    | some d => if d < base then digits base (acc * base + d) cs else none
    | none => none

/-- An immediate: "decimal or `0x` hexadecimal" (R60). -/
def numberOf : List Char → Option Nat
  | '0' :: 'x' :: c :: cs => digits 16 0 (c :: cs)
  | c :: cs => digits 10 0 (c :: cs)
  | [] => none

/-- An 8-bit operand: a symbol or a number. -/
def operandOf (t : List Char) : Option Operand :=
  match symbolOf (String.ofList t) with
  | some s => some (.symbol s)
  | none => (numberOf t).map .number

/-- The words of a line: separated by blanks, a comma a word of its own, the rest from `;` on a comment (R60). `acc`
holds the letters of the word being read. -/
def lineWords : List Char → List Char → List (List Char)
  | acc, [] => if acc = [] then [] else [acc]
  | acc, c :: cs =>
    if c = ';' then (if acc = [] then [] else [acc])
    else if c = ' ' ∨ c = '\t' then (if acc = [] then lineWords [] cs else acc :: lineWords [] cs)
    else if c = ',' then (if acc = [] then [','] :: lineWords [] cs else acc :: [','] :: lineWords [] cs)
    else lineWords (acc ++ [c]) cs

/-- A line of one word. -/
def sourceOf0 : String → Option Source
  | "INIT" => some .init
  | "REQLEN" => some .reqlen
  | "FILL" => some .fill
  | "RESTART" => some .restart
  | "ISFIN" => some .isfin
  | "NEXT" => some .next
  | _ => none

/-- A line of a mnemonic and one operand. -/
def sourceOf1 (mnemonic : String) (t : List Char) : Option Source :=
  match mnemonic with
  | "SETPACK" => (operandOf t).map .setpack
  | "SETPL0" => (operandOf t).map .setpl0
  | "SETPL1" => (operandOf t).map .setpl1
  | "SETFB0" => (operandOf t).map .setfb0
  | "SETORD" => (operandOf t).map .setord
  | "SETPRE" => (numberOf t).map .setpre
  | "SETSUF" => (numberOf t).map .setsuf
  | "SETCNT" => (numberOf t).map .setcnt
  | "DRAIN" => (numberOf t).map .drain
  | _ => none

/-- The eight operands of CONFIGURE (R60). -/
def configureOf (pk l0 l1 f o p q n : List Char) : Option Source :=
  match operandOf pk, operandOf l0, operandOf l1, operandOf f, operandOf o, numberOf p, numberOf q, numberOf n with
  | some pk, some l0, some l1, some f, some o, some p, some q, some n => some (.configure pk l0 l1 f o p q n)
  | _, _, _, _, _, _, _, _ => none

/-- One line of assembly (R60): `some none` for a line with no command, `none` for a line that is no assembly. -/
def parseLine (line : List Char) : Option (Option Source) :=
  match lineWords [] line with
  | [] => some none
  | [m] => (sourceOf0 (String.ofList m)).map some
  | [m, t] => (sourceOf1 (String.ofList m) t).map some
  | [m, pk, c1, l0, c2, l1, c3, f, c4, o, c5, p, c6, q, c7, n] =>
    if String.ofList m = "CONFIGURE" ∧ [c1, c2, c3, c4, c5, c6, c7].all (· = [',']) then
      (configureOf pk l0 l1 f o p q n).map some
    else none
  | _ => none

/-- The words of one line of text; none for an assembly error. -/
def assembleLine (line : List Char) : Option (List Word) :=
  match parseLine line with
  | some (some x) => assemble x
  | some none => some []
  | none => none

/-- The words of a text, its lines given one by one: one command per line (R60). -/
def assembleText : List (List Char) → Option (List Word)
  | [] => some []
  | l :: ls =>
    match assembleLine l, assembleText ls with
    | some ws, some rest => some (ws ++ rest)
    | _, _ => none

end Sys2Proof.Machine
end

