-- ==== Sys2Proof/Safety.lean ====
section
/-!
DEFINITION. What statements speak of: the invariant of the block (spec/10_state.md R24 to R26) with the form of the
two memories, the commands by kind, and pulling a stream with NEXT (spec/41_encoder.md R87).
-/

namespace Sys2Proof.Machine

/-- The cursor is within the stream, and even within a DOUBLE data zone (R26). -/
abbrev CursorOk (s : State) : Prop :=
  s.cursor.toNat ≤ virtLen s.cfg ∧
  (s.cfg.packing = 0x01 → s.cfg.prefixLen.toNat ≤ s.cursor.toNat →
    s.cursor.toNat < s.cfg.prefixLen.toNat + 24 * s.cfg.count.toNat →
    (s.cursor.toNat - s.cfg.prefixLen.toNat) % 2 = 0)

/-- What holds while `valid` is 1: the latched configuration passes INIT's checks (R24), the templates are its
compilation (R25), and the cursor is in place (R26). -/
abbrev Configured (s : State) : Prop :=
  validate s.cfg = .ok ∧ (s.pulse0, s.pulse1) = compile s.cfg ∧ CursorOk s

/-- Both memories are in canonical form and list only addresses they have (R29, R31). -/
abbrev MemoriesOk (s : State) : Prop :=
  s.led.wf ∧ s.out.wf ∧ s.led.below (3 * s.ledCap) ∧ s.out.below s.outSize

/-- The invariant of the machine (R24 to R26, R29, R31). -/
abbrev Inv (s : State) : Prop := MemoriesOk s ∧ (s.valid = true → Configured s)

/-- The eight SET commands (R16). -/
abbrev IsSet : Instr → Prop
  | .setpack _ | .setpl0 _ | .setpl1 _ | .setfb0 _ | .setord _ | .setpre _ | .setsuf _ | .setcnt _ => True
  | .init | .reqlen | .fill | .restart | .isfin | .next => False

/-- `n` NEXT commands one after another: their responses in order and the state they leave; none where one of them
does not answer. -/
def drain : Nat → State → Option (List Word × State)
  | 0, s => some ([], s)
  | n + 1, s =>
    match exec .next s with
    | .next t =>
      match t.resp with
      | some r => (drain n t).map (fun p => (r :: p.1, p.2))
      | none => none
    | .fault _ => none
    | .refused _ => none

/-- The answer of ISFIN at a state; none where it does not answer. -/
def isfinAnswer (s : State) : Option Word :=
  match exec .isfin s with
  | .next t => t.resp
  | .fault _ => none
  | .refused _ => none

/-- Which byte of the stream stands at a cursor value (R35, R86): the cursor itself in SINGLE and before the data; one
byte per two units inside a DOUBLE data zone; after it the suffix bytes one by one. -/
def streamIndex (c : Settings) (pos : Nat) : Nat :=
  if c.packing = 0x00 ∨ pos ≤ c.prefixLen.toNat then pos
  else if pos ≤ c.prefixLen.toNat + 24 * c.count.toNat then c.prefixLen.toNat + (pos - c.prefixLen.toNat) / 2
  else pos - 12 * c.count.toNat

end Sys2Proof.Machine
end

