-- ==== Sys2Proof/Certificates/Slice0/Obligations.lean ====
section
/-!
DEFINITION. The statements for the provers, from the numbered rules of spec/. `exec i s` is the meaning of the command
`i` taken in the state `s`; `step s` performs the host's next action. A fault of a command (R94) is a next state whose
`fault` records it.
-/

open Sys2Proof Sys2Proof.Machine

/-! ### Encoding -/

/-- R53, R54, R60: words written out from the spec's table and examples. -/
def Obligations.SampleWordsDecode : Prop :=
  decode 0x10000001 = .ok (.setpack 0x01) ∧ decode 0x1200003F = .ok (.setpl1 0x3F) ∧
  decode 0x1500000A = .ok (.setpre 10) ∧ decode 0x17000001 = .ok (.setcnt 1) ∧
  decode 0x20000000 = .ok .init ∧ decode 0x31000000 = .ok .fill ∧ decode 0x34000000 = .ok .next ∧
  decode 0x35000000 = .error .reservedOpcode ∧ decode 0x10000100 = .error .mustBeZero

/-- R50, R54, R60: decoding the word of a command gives the command back, for all commands and immediates. -/
def Obligations.DecodeInvertsEncode : Prop := ∀ i : Instr, decode (encode i) = .ok i

/-- R50, R54: a word has one meaning, and that meaning's word is the word itself. -/
def Obligations.EncodeInvertsDecode : Prop := ∀ (w : Word) (i : Instr), decode w = .ok i → encode i = w

/-- R54: a word decodes to a command exactly when its opcode, must-be-zero bits and immediate are that command's, and
a word that decodes to none raises IllegalCommand. -/
def Obligations.WordsDecodeByTheirFields : Prop :=
  (∀ (w : Word) (i : Instr), decode w = .ok i ↔
    match i with
    | .setpack v => opField w = 0x10 ∧ w.extractLsb' 8 16 = 0 ∧ w.extractLsb' 0 8 = v
    | .setpl0 v => opField w = 0x11 ∧ w.extractLsb' 8 16 = 0 ∧ w.extractLsb' 0 8 = v
    | .setpl1 v => opField w = 0x12 ∧ w.extractLsb' 8 16 = 0 ∧ w.extractLsb' 0 8 = v
    | .setfb0 v => opField w = 0x13 ∧ w.extractLsb' 8 16 = 0 ∧ w.extractLsb' 0 8 = v
    | .setord v => opField w = 0x14 ∧ w.extractLsb' 8 16 = 0 ∧ w.extractLsb' 0 8 = v
    | .setpre v => opField w = 0x15 ∧ w.extractLsb' 16 8 = 0 ∧ w.extractLsb' 0 16 = v
    | .setsuf v => opField w = 0x16 ∧ w.extractLsb' 16 8 = 0 ∧ w.extractLsb' 0 16 = v
    | .setcnt v => opField w = 0x17 ∧ w.extractLsb' 16 8 = 0 ∧ w.extractLsb' 0 16 = v
    | .init => w = 0x20000000
    | .reqlen => w = 0x30000000
    | .fill => w = 0x31000000
    | .restart => w = 0x32000000
    | .isfin => w = 0x33000000
    | .next => w = 0x34000000) ∧
  (∀ (s : State) (w : Word) (rest : List HostAction), s.fault = none → s.host = .command w :: rest →
    (∀ i, decode w ≠ .ok i) →
    step s = .next { s with host := rest, fault := some (.illegalCommand, w), resp := none })

/-- R55: reserved opcodes and non-zero must-be-zero bits raise IllegalCommand; a configuration value outside its legal
set does not: each SET command stores any value in its shadow field without a fault, and INIT answers a non-zero status
code. -/
def Obligations.ReservedEncodingsAreIllegal : Prop :=
  (∀ (s : State) (w : Word) (rest : List HostAction), s.fault = none → s.host = .command w :: rest →
    ((opField w).toNat ≤ 0x0F ∨ (0x18 ≤ (opField w).toNat ∧ (opField w).toNat ≤ 0x1F) ∨
      (0x21 ≤ (opField w).toNat ∧ (opField w).toNat ≤ 0x2F) ∨ 0x35 ≤ (opField w).toNat ∨
      ((0x10 ≤ (opField w).toNat ∧ (opField w).toNat ≤ 0x14) ∧ w.extractLsb' 8 16 ≠ 0) ∨
      ((0x15 ≤ (opField w).toNat ∧ (opField w).toNat ≤ 0x17) ∧ w.extractLsb' 16 8 ≠ 0) ∨
      (((opField w).toNat = 0x20 ∨ 0x30 ≤ (opField w).toNat) ∧ w.extractLsb' 0 24 ≠ 0)) →
    step s = .next { s with host := rest, fault := some (.illegalCommand, w), resp := none }) ∧
  (∀ (s : State) (v : Byte),
    (∃ t, exec (.setpack v) s = .next t ∧ t.sh = { s.sh with packing := v } ∧ t.fault = s.fault) ∧
    (∃ t, exec (.setpl0 v) s = .next t ∧ t.sh = { s.sh with pl0 := v } ∧ t.fault = s.fault) ∧
    (∃ t, exec (.setpl1 v) s = .next t ∧ t.sh = { s.sh with pl1 := v } ∧ t.fault = s.fault) ∧
    (∃ t, exec (.setfb0 v) s = .next t ∧ t.sh = { s.sh with fb0 := v } ∧ t.fault = s.fault) ∧
    (∃ t, exec (.setord v) s = .next t ∧ t.sh = { s.sh with order := v } ∧ t.fault = s.fault)) ∧
  (∀ s : State,
    (s.sh.packing ∉ [0x00, 0x01] ∨ s.sh.pl0 ∉ [0x01, 0x03, 0x07, 0x0F, 0x1F, 0x3F, 0x7F] ∨
      s.sh.pl1 ∉ [0x01, 0x03, 0x07, 0x0F, 0x1F, 0x3F, 0x7F] ∨ s.sh.fb0 ∉ [0x00, 0x01] ∨ s.sh.order ∉ [0x00, 0x01]) →
    ∃ t r, exec .init s = .next t ∧ t.fault = s.fault ∧ t.resp = some r ∧ r ≠ 0)

/-- R60: an 8-bit immediate assembles when it is at most 0xFF and a 16-bit one when it is at most 0xFFFF, to
`(OP << 24) | IMM`; CONFIGURE is its nine commands in order, DRAIN n is n NEXTs. -/
def Obligations.AssemblerChecksAndPlacesImmediates : Prop :=
  (∀ n : Nat,
    assemble (.setpack (.number n)) = (if n ≤ 0xFF then some [(0x10#32 <<< 24) ||| BitVec.ofNat 32 n] else none) ∧
    assemble (.setpl0 (.number n)) = (if n ≤ 0xFF then some [(0x11#32 <<< 24) ||| BitVec.ofNat 32 n] else none) ∧
    assemble (.setpl1 (.number n)) = (if n ≤ 0xFF then some [(0x12#32 <<< 24) ||| BitVec.ofNat 32 n] else none) ∧
    assemble (.setfb0 (.number n)) = (if n ≤ 0xFF then some [(0x13#32 <<< 24) ||| BitVec.ofNat 32 n] else none) ∧
    assemble (.setord (.number n)) = (if n ≤ 0xFF then some [(0x14#32 <<< 24) ||| BitVec.ofNat 32 n] else none) ∧
    assemble (.setpre n) = (if n ≤ 0xFFFF then some [(0x15#32 <<< 24) ||| BitVec.ofNat 32 n] else none) ∧
    assemble (.setsuf n) = (if n ≤ 0xFFFF then some [(0x16#32 <<< 24) ||| BitVec.ofNat 32 n] else none) ∧
    assemble (.setcnt n) = (if n ≤ 0xFFFF then some [(0x17#32 <<< 24) ||| BitVec.ofNat 32 n] else none) ∧
    assemble (.drain n) = some (List.replicate n 0x34000000)) ∧
  (∀ (pk l0 l1 f o : Operand) (p q n : Nat) (w0 w1 w2 w3 w4 w5 w6 w7 : Word),
    assemble (.setpack pk) = some [w0] → assemble (.setpl0 l0) = some [w1] → assemble (.setpl1 l1) = some [w2] →
    assemble (.setfb0 f) = some [w3] → assemble (.setord o) = some [w4] → assemble (.setpre p) = some [w5] →
    assemble (.setsuf q) = some [w6] → assemble (.setcnt n) = some [w7] →
    assemble (.configure pk l0 l1 f o p q n) = some [w0, w1, w2, w3, w4, w5, w6, w7, 0x20000000])

/-! ### SET and INIT -/

/-- R61 to R68: every SET command completes from every state, writes its shadow register and the response 0, and
nothing else. -/
def Obligations.SetCommandsComplete : Prop :=
  ∀ (s : State) (b : Byte) (h : Half),
    exec (.setpack b) s = .next { s with sh := { s.sh with packing := b }, resp := some 0 } ∧
    exec (.setpl0 b) s = .next { s with sh := { s.sh with pl0 := b }, resp := some 0 } ∧
    exec (.setpl1 b) s = .next { s with sh := { s.sh with pl1 := b }, resp := some 0 } ∧
    exec (.setfb0 b) s = .next { s with sh := { s.sh with fb0 := b }, resp := some 0 } ∧
    exec (.setord b) s = .next { s with sh := { s.sh with order := b }, resp := some 0 } ∧
    exec (.setpre h) s = .next { s with sh := { s.sh with prefixLen := h }, resp := some 0 } ∧
    exec (.setsuf h) s = .next { s with sh := { s.sh with suffixLen := h }, resp := some 0 } ∧
    exec (.setcnt h) s = .next { s with sh := { s.sh with count := h }, resp := some 0 }

/-- R61 to R65, from the word: IMM8 is stored in the shadow field when bits 23:8 are zero and the word is illegal when
they are not; and a value outside its legal set is reported by the next INIT, when the checks before it pass (R69). -/
def Obligations.SetWordsOfFormatC8 : Prop :=
  (∀ (s : State) (w : Word) (rest : List HostAction), s.fault = none → s.host = .command w :: rest →
    (opField w = 0x10 ∨ opField w = 0x11 ∨ opField w = 0x12 ∨ opField w = 0x13 ∨ opField w = 0x14) →
    (w.extractLsb' 8 16 ≠ 0 →
      step s = .next { s with host := rest, fault := some (.illegalCommand, w), resp := none }) ∧
    (w.extractLsb' 8 16 = 0 →
      (opField w = 0x10 →
        step s = .next { s with host := rest, sh := { s.sh with packing := w.extractLsb' 0 8 }, resp := some 0 }) ∧
      (opField w = 0x11 →
        step s = .next { s with host := rest, sh := { s.sh with pl0 := w.extractLsb' 0 8 }, resp := some 0 }) ∧
      (opField w = 0x12 →
        step s = .next { s with host := rest, sh := { s.sh with pl1 := w.extractLsb' 0 8 }, resp := some 0 }) ∧
      (opField w = 0x13 →
        step s = .next { s with host := rest, sh := { s.sh with fb0 := w.extractLsb' 0 8 }, resp := some 0 }) ∧
      (opField w = 0x14 →
        step s = .next { s with host := rest, sh := { s.sh with order := w.extractLsb' 0 8 }, resp := some 0 }))) ∧
  (∀ (s : State) (v : Byte),
    (v ∉ [0x00, 0x01] → ∃ t u, exec (.setpack v) s = .next t ∧ exec .init t = .next u ∧ u.resp = some 0x01) ∧
    (s.sh.packing ∈ [0x00, 0x01] →
      (v ∉ [0x01, 0x03, 0x07, 0x0F, 0x1F, 0x3F, 0x7F] →
        ∃ t u, exec (.setpl0 v) s = .next t ∧ exec .init t = .next u ∧ u.resp = some 0x02) ∧
      (s.sh.pl0 ∈ [0x01, 0x03, 0x07, 0x0F, 0x1F, 0x3F, 0x7F] →
        (v ∉ [0x01, 0x03, 0x07, 0x0F, 0x1F, 0x3F, 0x7F] →
          ∃ t u, exec (.setpl1 v) s = .next t ∧ exec .init t = .next u ∧ u.resp = some 0x03) ∧
        (s.sh.pl1 ∈ [0x01, 0x03, 0x07, 0x0F, 0x1F, 0x3F, 0x7F] →
          (v ∉ [0x00, 0x01] → ∃ t u, exec (.setfb0 v) s = .next t ∧ exec .init t = .next u ∧ u.resp = some 0x04) ∧
          (s.sh.fb0 ∈ [0x00, 0x01] → v ∉ [0x00, 0x01] →
            ∃ t u, exec (.setord v) s = .next t ∧ exec .init t = .next u ∧ u.resp = some 0x05)))))

/-- R66 to R68, from the word: IMM16 is stored when bits 23:16 are zero, the word is illegal when they are not; and no
count is rejected by INIT. -/
def Obligations.SetWordsOfFormatC16 : Prop :=
  (∀ (s : State) (w : Word) (rest : List HostAction), s.fault = none → s.host = .command w :: rest →
    (opField w = 0x15 ∨ opField w = 0x16 ∨ opField w = 0x17) →
    (w.extractLsb' 16 8 ≠ 0 →
      step s = .next { s with host := rest, fault := some (.illegalCommand, w), resp := none }) ∧
    (w.extractLsb' 16 8 = 0 →
      (opField w = 0x15 →
        step s = .next { s with host := rest, sh := { s.sh with prefixLen := w.extractLsb' 0 16 }, resp := some 0 }) ∧
      (opField w = 0x16 →
        step s = .next { s with host := rest, sh := { s.sh with suffixLen := w.extractLsb' 0 16 }, resp := some 0 }) ∧
      (opField w = 0x17 →
        step s = .next { s with host := rest, sh := { s.sh with count := w.extractLsb' 0 16 }, resp := some 0 }))) ∧
  (∀ (s : State) (p q n : Half), ∃ t u,
    exec .init s = .next t ∧
    exec .init { s with sh := { s.sh with prefixLen := p, suffixLen := q, count := n } } = .next u ∧ u.resp = t.resp)

/-- R69, R70: INIT answers, from every state, the code of the first failing check in the listed order; the run lengths
may be compared as numbers; the counts are not checked. `valid` says whether it succeeded. -/
def Obligations.InitReportsFirstFailingCheck : Prop :=
  ∀ s : State, ∃ t r, exec .init s = .next t ∧ t.resp = some r ∧ t.valid = decide (r = 0x00) ∧
    r = (if s.sh.packing ∉ [0x00, 0x01] then 0x01
      else if s.sh.pl0 ∉ [0x01, 0x03, 0x07, 0x0F, 0x1F, 0x3F, 0x7F] then 0x02
      else if s.sh.pl1 ∉ [0x01, 0x03, 0x07, 0x0F, 0x1F, 0x3F, 0x7F] then 0x03
      else if s.sh.fb0 ∉ [0x00, 0x01] then 0x04
      else if s.sh.order ∉ [0x00, 0x01] then 0x05
      else if s.sh.pl1.toNat ≤ s.sh.pl0.toNat then 0x06
      else if s.sh.packing = 0x01 ∧ s.sh.pl1 ∈ [0x0F, 0x1F, 0x3F, 0x7F] then 0x07
      else 0x00)

/-- R75: a valid shadow configuration is latched and compiled, the cursor restarted and `valid` set; a failed check
clears `valid` and changes no other register; a word of INIT's opcode with a bit 23:0 set is illegal. -/
def Obligations.InitLatchesOrRejects : Prop :=
  (∀ s : State, validate s.sh = .ok →
    exec .init s = .next { s with
      cfg := s.sh, pulse0 := (compile s.sh).1, pulse1 := (compile s.sh).2, cursor := 0, valid := true,
      resp := some 0 }) ∧
  (∀ s : State, validate s.sh ≠ .ok →
    exec .init s = .next { s with valid := false, resp := some ((statusCode (validate s.sh)).setWidth 32) }) ∧
  (∀ (s : State) (w : Word) (rest : List HostAction), s.fault = none → s.host = .command w :: rest →
    opField w = 0x20 → w.extractLsb' 0 24 ≠ 0 →
    step s = .next { s with host := rest, fault := some (.illegalCommand, w), resp := none })

/-- R76: INIT is a pure function of the shadow registers. -/
def Obligations.InitIsPureInTheShadows : Prop :=
  ∀ s s' : State, s.sh = s'.sh → ∃ t t', exec .init s = .next t ∧ exec .init s' = .next t' ∧ t.resp = t'.resp ∧
    (t.resp = some 0 → t.cfg = t'.cfg ∧ t.pulse0 = t'.pulse0 ∧ t.pulse1 = t'.pulse1 ∧ t.cursor = t'.cursor ∧
      t.valid = t'.valid)

/-- R110: INIT right after reset answers InvalidPulseLen0, whatever the sizes and contents of the memories. -/
def Obligations.InitRightAfterResetFails : Prop :=
  ∀ (cap size : Nat) (led out : Memory) (h : List HostAction), ∃ t,
    exec .init (State.powerOn cap size led out h) = .next t ∧ t.resp = some 0x02

/-- R73: the template registers after a successful INIT, from the two tables. -/
def Obligations.TemplatesFollowTheTables : Prop :=
  ∀ (s t : State) (n0 n1 : Nat), exec .init s = .next t → t.valid = true → run s.sh.pl0 = some n0 →
    run s.sh.pl1 = some n1 →
    (s.sh.packing = 0x00 →
      (s.sh.fb0 = 0x00 → s.sh.order = 0x00 →
        [0x00, 0x01, 0x03, 0x07, 0x0F, 0x1F, 0x3F, 0x7F][n0]? = some t.pulse0 ∧
        [0x00, 0x01, 0x03, 0x07, 0x0F, 0x1F, 0x3F, 0x7F][n1]? = some t.pulse1) ∧
      (s.sh.fb0 = 0x00 → s.sh.order = 0x01 →
        [0x00, 0x80, 0xC0, 0xE0, 0xF0, 0xF8, 0xFC, 0xFE][n0]? = some t.pulse0 ∧
        [0x00, 0x80, 0xC0, 0xE0, 0xF0, 0xF8, 0xFC, 0xFE][n1]? = some t.pulse1) ∧
      (s.sh.fb0 = 0x01 → s.sh.order = 0x00 →
        [0x00, 0x02, 0x06, 0x0E, 0x1E, 0x3E, 0x7E, 0xFE][n0]? = some t.pulse0 ∧
        [0x00, 0x02, 0x06, 0x0E, 0x1E, 0x3E, 0x7E, 0xFE][n1]? = some t.pulse1) ∧
      (s.sh.fb0 = 0x01 → s.sh.order = 0x01 →
        [0x00, 0x40, 0x60, 0x70, 0x78, 0x7C, 0x7E, 0x7F][n0]? = some t.pulse0 ∧
        [0x00, 0x40, 0x60, 0x70, 0x78, 0x7C, 0x7E, 0x7F][n1]? = some t.pulse1)) ∧
    (s.sh.packing = 0x01 →
      (s.sh.fb0 = 0x00 → s.sh.order = 0x00 →
        [0x00, 0x01, 0x03, 0x07][n0]? = some t.pulse0 ∧ [0x00, 0x01, 0x03, 0x07][n1]? = some t.pulse1) ∧
      (s.sh.fb0 = 0x00 → s.sh.order = 0x01 →
        [0x00, 0x08, 0x0C, 0x0E][n0]? = some t.pulse0 ∧ [0x00, 0x08, 0x0C, 0x0E][n1]? = some t.pulse1) ∧
      (s.sh.fb0 = 0x01 → s.sh.order = 0x00 →
        [0x00, 0x02, 0x06, 0x0E][n0]? = some t.pulse0 ∧ [0x00, 0x02, 0x06, 0x0E][n1]? = some t.pulse1) ∧
      (s.sh.fb0 = 0x01 → s.sh.order = 0x01 →
        [0x00, 0x04, 0x06, 0x07][n0]? = some t.pulse0 ∧ [0x00, 0x04, 0x06, 0x07][n1]? = some t.pulse1))

/-- R74 (derived there from R72 and R36, whose meaning of the two serial orders is general knowledge: 93 K2, log entry
10): on the wire every colour bit is `s` zeros, then as many ones as its run is long, then zeros, 8 bit periods in
SINGLE and 4 in DOUBLE packing, for both serial bit orders; in DOUBLE the bit sent first is the pair's first (R78). -/
def Obligations.PulsesSurviveTheWireOrder : Prop :=
  ∀ (s : State) (n0 n1 : Nat), Inv s → s.valid = true → run s.cfg.pl0 = some n0 → run s.cfg.pl1 = some n1 →
    (s.cfg.packing = 0x00 → ∀ x : Bool,
      tx (enc1 s x) s.cfg.order =
        List.replicate (firstBitShift s.cfg) false ++ List.replicate (if x then n1 else n0) true ++
          List.replicate (8 - firstBitShift s.cfg - (if x then n1 else n0)) false) ∧
    (s.cfg.packing = 0x01 → ∀ x1 x2 : Bool,
      tx (enc2 s x1 x2) s.cfg.order =
        (List.replicate (firstBitShift s.cfg) false ++ List.replicate (if x1 then n1 else n0) true ++
          List.replicate (4 - firstBitShift s.cfg - (if x1 then n1 else n0)) false) ++
        (List.replicate (firstBitShift s.cfg) false ++ List.replicate (if x2 then n1 else n0) true ++
          List.replicate (4 - firstBitShift s.cfg - (if x2 then n1 else n0)) false))

/-- R25: in a good state with `valid` 1 the templates are the compiled ones, below 0x10 in DOUBLE packing. -/
def Obligations.DoubleTemplatesFitANibble : Prop :=
  ∀ s : State, Inv s → s.valid = true →
    (s.pulse0, s.pulse1) = compile s.cfg ∧
    (s.cfg.packing = 0x01 → s.pulse0.toNat < 0x10 ∧ s.pulse1.toNat < 0x10)

/-! ### The stream -/

/-- R80, R33, R34: the length and every byte of the stream. -/
def Obligations.StreamLayout : Prop :=
  ∀ s : State,
    (stream s).length = s.cfg.prefixLen.toNat + s.cfg.count.toNat * (if s.cfg.packing = 0x00 then 24 else 12) +
      s.cfg.suffixLen.toNat ∧
    (∀ k, k < s.cfg.prefixLen.toNat → (stream s)[k]? = some 0x00) ∧
    (∀ k, k < s.cfg.suffixLen.toNat → (stream s)[(stream s).length - 1 - k]? = some 0x00) ∧
    (∀ i c, i < s.cfg.count.toNat → c < 3 →
      (s.cfg.packing = 0x00 → ∀ j, j < 8 →
        (stream s)[s.cfg.prefixLen.toNat + 24 * i + 8 * c + j]? =
          some (enc1 s (bitAt (chan s i (channelOf c)) (7 - j)))) ∧
      (s.cfg.packing ≠ 0x00 → ∀ j, j < 4 →
        (stream s)[s.cfg.prefixLen.toNat + 12 * i + 4 * c + j]? =
          some (enc2 s (bitAt (chan s i (channelOf c)) (7 - 2 * j)) (bitAt (chan s i (channelOf c)) (6 - 2 * j)))))

/-- R30, R79: which LED byte a channel is: green at 3i+1, red at 3i, blue at 3i+2, where the host has written it. -/
def Obligations.ChannelBytesComeFromTheRecord : Prop :=
  ∀ (s : State) (i : Nat) (v : Byte),
    (memRead s.led (3 * i + 1) = some v → chan s i (channelOf 0) = v) ∧
    (memRead s.led (3 * i) = some v → chan s i (channelOf 1) = v) ∧
    (memRead s.led (3 * i + 2) = some v → chan s i (channelOf 2) = v)

/-- R81: REQLEN completes from every state with the length for the shadow configuration, which fits the response, and
writes no state; a word of its opcode with a bit 23:0 set is illegal. -/
def Obligations.ReqlenAnswersTheLength : Prop :=
  (∀ s : State, ∃ r : Word,
    exec .reqlen s = .next { s with resp := some r } ∧
    r.toNat = s.sh.count.toNat * (if s.sh.packing = 0x00 then 24 else 12) + s.sh.prefixLen.toNat +
      s.sh.suffixLen.toNat ∧ r.toNat ≤ 1703910) ∧
  (∀ (s : State) (w : Word) (rest : List HostAction), s.fault = none → s.host = .command w :: rest →
    opField w = 0x30 → w.extractLsb' 0 24 ≠ 0 →
    step s = .next { s with host := rest, fault := some (.illegalCommand, w), resp := none })

/-- R91: after a successful INIT the two configurations are equal, every command but SET keeps them so, and then REQLEN
answers the number of bytes of the stream. -/
def Obligations.ReqlenAgreesWithTheStream : Prop :=
  (∀ s t : State, exec .init s = .next t → t.valid = true → t.sh = t.cfg) ∧
  (∀ (s t : State) (i : Instr), ¬ IsSet i → s.sh = s.cfg → exec i s = .next t → t.sh = t.cfg) ∧
  (∀ s : State, s.sh = s.cfg →
    ∃ t, exec .reqlen s = .next t ∧ t.resp = some (BitVec.ofNat 32 (stream s).length) ∧
      (stream s).length ≤ 1703910)

/-- R82: FILL. Configured, with room for the stream and every LED present, it completes: OUT holds the stream from
address 0, every other byte of OUT is as before, and no register changes. Otherwise it faults, in the rule's order, with
its word and no other effect; a word of its opcode with a bit 23:0 set is illegal. -/
def Obligations.FillWritesTheStreamOrFaults : Prop :=
  (∀ s : State, s.valid = true →
    s.cfg.prefixLen.toNat + s.cfg.count.toNat * (if s.cfg.packing = 0x00 then 24 else 12) + s.cfg.suffixLen.toNat
      ≤ s.outSize →
    s.cfg.count.toNat ≤ s.ledCap →
    ∃ t, exec .fill s = .next t ∧ t = { s with out := t.out, resp := some 0 } ∧
      (stream s).length = s.cfg.prefixLen.toNat + s.cfg.count.toNat * (if s.cfg.packing = 0x00 then 24 else 12) +
        s.cfg.suffixLen.toNat ∧
      (∀ k, k < (stream s).length → memRead t.out k = (stream s)[k]?) ∧
      (∀ a, (stream s).length ≤ a → memRead t.out a = memRead s.out a)) ∧
  (∀ s : State,
    (s.valid = false →
      exec .fill s = .next { s with fault := some (.unconfigured, 0x31000000), resp := none }) ∧
    (s.valid = true → s.outSize < (stream s).length →
      exec .fill s = .next { s with fault := some (.bufferTooSmall, 0x31000000), resp := none }) ∧
    (s.valid = true → (stream s).length ≤ s.outSize → s.ledCap < s.cfg.count.toNat →
      exec .fill s = .next { s with fault := some (.ledRange, 0x31000000), resp := none })) ∧
  (∀ (s : State) (w : Word) (rest : List HostAction), s.fault = none → s.host = .command w :: rest →
    opField w = 0x31 → w.extractLsb' 0 24 ≠ 0 →
    step s = .next { s with host := rest, fault := some (.illegalCommand, w), resp := none })

/-- R83: RESTART completes from every state, configured or not, and writes the cursor only; ISFIN then answers 0 when
the virtual length is not 0; a word of its opcode with a bit 23:0 set is illegal. -/
def Obligations.RestartZeroesTheCursor : Prop :=
  (∀ s : State, exec .restart s = .next { s with cursor := 0, resp := some 0 }) ∧
  (∀ s t : State, exec .restart s = .next t → s.valid = true → 0 < virtLen s.cfg → isfinAnswer t = some 0) ∧
  (∀ (s : State) (w : Word) (rest : List HostAction), s.fault = none → s.host = .command w :: rest →
    opField w = 0x32 → w.extractLsb' 0 24 ≠ 0 →
    step s = .next { s with host := rest, fault := some (.illegalCommand, w), resp := none })

/-- R84: ISFIN of a configured block completes with 1 when the cursor has reached the virtual length, else 0, whatever
the packing, and writes no state; unconfigured it faults; a word of its opcode with a bit 23:0 set is illegal. -/
def Obligations.IsfinReportsTheEnd : Prop :=
  (∀ s : State, s.valid = true →
    exec .isfin s = .next { s with
      resp := some (if s.cfg.prefixLen.toNat + 24 * s.cfg.count.toNat + s.cfg.suffixLen.toNat ≤ s.cursor.toNat
        then 1 else 0) }) ∧
  (∀ s : State, s.valid = false →
    exec .isfin s = .next { s with fault := some (.unconfigured, 0x33000000), resp := none }) ∧
  (∀ (s : State) (w : Word) (rest : List HostAction), s.fault = none → s.host = .command w :: rest →
    opField w = 0x33 → w.extractLsb' 0 24 ≠ 0 →
    step s = .next { s with host := rest, fault := some (.illegalCommand, w), resp := none })

/-- R85: every cursor value lies in exactly one zone, bounded as the rule says. -/
def Obligations.ZonesAreTheCursorIntervals : Prop :=
  ∀ (c : Settings) (pos : Nat),
    (zone c pos = .prefixZone ↔ pos < c.prefixLen.toNat) ∧
    (zone c pos = .dataZone ↔
      c.prefixLen.toNat ≤ pos ∧ pos < c.prefixLen.toNat + 24 * c.count.toNat) ∧
    (zone c pos = .suffixZone ↔
      c.prefixLen.toNat + 24 * c.count.toNat ≤ pos ∧
        pos < c.prefixLen.toNat + 24 * c.count.toNat + c.suffixLen.toNat) ∧
    (zone c pos = .doneZone ↔ c.prefixLen.toNat + 24 * c.count.toNat + c.suffixLen.toNat ≤ pos)

/-- R86: NEXT. Outside the data it answers 0x00 and moves by 1 (by 0 when done); in the data it answers the encoded bit
and moves by 1 (SINGLE) or the encoded pair and moves by 2 (DOUBLE). It faults when unconfigured and past the LED
memory, and a word of its opcode with a bit 23:0 set is illegal. (A DOUBLE step at an odd bit index is the statement
after this one.) -/
def Obligations.NextAnswersByZone : Prop :=
  (∀ s : State, s.valid = true →
    (s.cursor.toNat < s.cfg.prefixLen.toNat →
      exec .next s = .next { s with cursor := s.cursor + 1, resp := some 0 }) ∧
    (s.cfg.prefixLen.toNat + 24 * s.cfg.count.toNat ≤ s.cursor.toNat →
      s.cursor.toNat < s.cfg.prefixLen.toNat + 24 * s.cfg.count.toNat + s.cfg.suffixLen.toNat →
      exec .next s = .next { s with cursor := s.cursor + 1, resp := some 0 }) ∧
    (s.cfg.prefixLen.toNat + 24 * s.cfg.count.toNat + s.cfg.suffixLen.toNat ≤ s.cursor.toNat →
      exec .next s = .next { s with resp := some 0 }) ∧
    (∀ off, s.cursor.toNat = s.cfg.prefixLen.toNat + off → off < 24 * s.cfg.count.toNat →
      (s.ledCap ≤ off / 24 →
        exec .next s = .next { s with fault := some (.ledRange, 0x34000000), resp := none }) ∧
      (off / 24 < s.ledCap → s.cfg.packing = 0x00 →
        exec .next s = .next { s with
          cursor := s.cursor + 1
          resp := some ((enc1 s (bitAt (chan s (off / 24) (channelOf (off % 24 / 8))) (7 - off % 8))).setWidth 32) }) ∧
      (off / 24 < s.ledCap → s.cfg.packing ≠ 0x00 → off % 2 = 0 →
        exec .next s = .next { s with
          cursor := s.cursor + 2
          resp := some ((enc2 s (bitAt (chan s (off / 24) (channelOf (off % 24 / 8))) (7 - off % 8))
            (bitAt (chan s (off / 24) (channelOf (off % 24 / 8))) (6 - off % 8))).setWidth 32) }))) ∧
  (∀ s : State, s.valid = false →
    exec .next s = .next { s with fault := some (.unconfigured, 0x34000000), resp := none }) ∧
  (∀ (s : State) (w : Word) (rest : List HostAction), s.fault = none → s.host = .command w :: rest →
    opField w = 0x34 → w.extractLsb' 0 24 ≠ 0 →
    step s = .next { s with host := rest, fault := some (.illegalCommand, w), resp := none })

/-- The MODEL'S CHOICE of log entry 5, which R86 and 93 U9 allow ("a model may refuse it"): a DOUBLE data step at an odd
bit index is refused; a good state never has one (R26), so there NEXT is never refused. -/
def Obligations.OddDoubleStepIsRefused : Prop :=
  (∀ (s : State) (off : Nat), s.valid = true → s.cfg.packing ≠ 0x00 →
    s.cursor.toNat = s.cfg.prefixLen.toNat + off → off < 24 * s.cfg.count.toNat → off / 24 < s.ledCap →
    off % 2 = 1 → exec .next s = .refused .oddDoubleStep) ∧
  (∀ s : State, Inv s → exec .next s ≠ .refused .oddDoubleStep)

/-- R35, R86: in a good, configured state before the end of the stream, NEXT answers the stream's byte for the cursor
and moves to the next one. -/
def Obligations.NextAnswersTheStreamByte : Prop :=
  ∀ s : State, Inv s → s.valid = true → s.cursor.toNat < virtLen s.cfg → s.cfg.count.toNat ≤ s.ledCap →
    ∃ t b, exec .next s = .next t ∧ (stream s)[streamIndex s.cfg s.cursor.toNat]? = some b ∧
      t.resp = some (b.setWidth 32) ∧ streamIndex s.cfg t.cursor.toNat = streamIndex s.cfg s.cursor.toNat + 1

/-- R87, the central property: from a good, configured state at cursor 0, the responses of NEXT taken until ISFIN
answers 1 are exactly the L bytes of the stream, in order, which are the bytes FILL writes. -/
def Obligations.DrainEqualsFill : Prop :=
  ∀ s : State, Inv s → s.valid = true → s.cursor = 0 → s.cfg.count.toNat ≤ s.ledCap →
    (∃ t, drain (physLen s.cfg) s = some ((stream s).map zext32, t) ∧ isfinAnswer t = some 1) ∧
    (∀ n, n < physLen s.cfg → ∃ rs t, drain n s = some (rs, t) ∧ isfinAnswer t = some 0) ∧
    (s.cfg.packing = 0x00 → physLen s.cfg = virtLen s.cfg) ∧
    (s.cfg.packing = 0x01 →
      physLen s.cfg = s.cfg.prefixLen.toNat + 12 * s.cfg.count.toNat + s.cfg.suffixLen.toNat) ∧
    (physLen s.cfg ≤ s.outSize → ∃ u, exec .fill s = .next u ∧
      ∀ k, k < physLen s.cfg → (memRead u.out k).map zext32 = ((stream s).map zext32)[k]?)

/-- R88: V NEXT commands from cursor 0 answer the L bytes of the stream and then V - L zero bytes, none in SINGLE and
12 per LED in DOUBLE packing. -/
def Obligations.ExtraNextsAnswerZero : Prop :=
  ∀ s : State, Inv s → s.valid = true → s.cursor = 0 → s.cfg.count.toNat ≤ s.ledCap →
    (∃ t, drain (virtLen s.cfg) s =
      some ((stream s).map zext32 ++ List.replicate (virtLen s.cfg - physLen s.cfg) 0, t)) ∧
    (s.cfg.packing = 0x00 → virtLen s.cfg - physLen s.cfg = 0) ∧
    (s.cfg.packing = 0x01 → virtLen s.cfg - physLen s.cfg = 12 * s.cfg.count.toNat)

/-- R89: once the cursor has reached V, any number of NEXTs answer 0x00 and change nothing but the response; ISFIN
answers 0 below V and 1 from V on. -/
def Obligations.DoneZoneIsTerminal : Prop :=
  (∀ (s : State) (n : Nat), s.valid = true → virtLen s.cfg ≤ s.cursor.toNat →
    ∃ t, drain n s = some (List.replicate n 0, t) ∧ t = { s with resp := t.resp } ∧ isfinAnswer t = some 1) ∧
  (∀ s : State, s.valid = true → s.cursor.toNat < virtLen s.cfg → isfinAnswer s = some 0)

/-- R90: RESTART from a good, configured state leaves the templates, answers "not finished" unless the stream is empty,
and the stream can be pulled again from its first byte. -/
def Obligations.RestartReplaysTheStream : Prop :=
  ∀ s : State, Inv s → s.valid = true → s.cfg.count.toNat ≤ s.ledCap →
    ∃ t, exec .restart s = .next t ∧ t.cursor = 0 ∧ t.pulse0 = s.pulse0 ∧ t.pulse1 = s.pulse1 ∧
      (0 < virtLen s.cfg → isfinAnswer t = some 0) ∧
      ∃ u, drain (physLen s.cfg) t = some ((stream s).map zext32, u) ∧ isfinAnswer u = some 1

/-- R47, R113: a SET command changes neither the stream nor what any number of NEXTs and an ISFIN answer. -/
def Obligations.SetDoesNotDisturbTheStream : Prop :=
  ∀ (s t : State) (i : Instr), IsSet i → exec i s = .next t →
    stream t = stream s ∧ isfinAnswer t = isfinAnswer s ∧
    ∀ n, (drain n t).map (fun p => (p.1, p.2.cursor)) = (drain n s).map (fun p => (p.1, p.2.cursor))

/-! ### The whole machine -/

/-- R13, R43, R98: a command word that decodes is run by the step that takes it, the host going on with the rest. -/
def Obligations.StepRunsTheDecodedCommand : Prop :=
  ∀ (s : State) (w : Word) (rest : List HostAction) (i : Instr), s.fault = none → s.host = .command w :: rest →
    decode w = .ok i → step s = exec i { s with host := rest }

/-- R23, in the MODEL'S form of log entry 7: a step that would take a command in a faulted block stops the machine with
the fault recorded; the block itself (registers, memories) is as the faulting command left it. -/
def Obligations.FaultedBlockTakesNoCommand : Prop :=
  ∀ (s : State) (w old : Word) (k : FaultKind) (rest : List HostAction), s.fault = some (k, old) →
    s.host = .command w :: rest → step s = .fault (.halted k old)

/-- R95: a command that faults records its kind and word, answers nothing and changes nothing else; a faulted block
takes no command; no command clears a fault; only a reset does. -/
def Obligations.FaultEndsTheRun : Prop :=
  (∀ (s t : State) (w : Word) (rest : List HostAction), s.fault = none → s.host = .command w :: rest →
    step s = .next t → t.fault ≠ none →
    ∃ k, t = { s with host := rest, fault := some (k, w), resp := none }) ∧
  (∀ (s t : State) (w : Word) (rest : List HostAction), s.fault ≠ none → s.host = .command w :: rest →
    step s ≠ .next t) ∧
  (∀ (i : Instr) (s t : State), exec i s = .next t → s.fault ≠ none → t.fault ≠ none) ∧
  (∀ s t : State, step s = .next t → s.fault ≠ none → (∀ rest, s.host ≠ .reset :: rest) → t.fault = s.fault)

/-- R94, R98: each fault kind arises from exactly the commands and causes of the table. -/
def Obligations.FaultsHaveTheListedCauses : Prop :=
  ∀ (s : State) (w : Word) (rest : List HostAction), s.fault = none → s.host = .command w :: rest →
    ((∃ t, step s = .next t ∧ t.fault = some (.illegalCommand, w)) ↔ ∀ i, decode w ≠ .ok i) ∧
    ((∃ t, step s = .next t ∧ t.fault = some (.unconfigured, w)) ↔
      (decode w = .ok .fill ∨ decode w = .ok .isfin ∨ decode w = .ok .next) ∧ s.valid = false) ∧
    ((∃ t, step s = .next t ∧ t.fault = some (.bufferTooSmall, w)) ↔
      decode w = .ok .fill ∧ s.valid = true ∧ s.outSize < physLen s.cfg) ∧
    ((∃ t, step s = .next t ∧ t.fault = some (.ledRange, w)) ↔
      (decode w = .ok .fill ∧ s.valid = true ∧ physLen s.cfg ≤ s.outSize ∧ s.ledCap < s.cfg.count.toNat) ∨
      (decode w = .ok .next ∧ s.valid = true ∧ zone s.cfg s.cursor.toNat = .dataZone ∧
        s.ledCap ≤ (s.cursor.toNat - s.cfg.prefixLen.toNat) / 24))

/-- R16, R17, R18, R19, R21, R29, R31: who writes what. A command leaves every register alone that is not its own. -/
def Obligations.EachCommandWritesOnlyItsState : Prop :=
  ∀ (i : Instr) (s t : State), exec i s = .next t →
    (IsSet i ∨ t.sh = s.sh) ∧
    (i = .init ∨ (t.cfg = s.cfg ∧ t.pulse0 = s.pulse0 ∧ t.pulse1 = s.pulse1 ∧ t.valid = s.valid)) ∧
    (t.valid = true ∨ (t.cfg = s.cfg ∧ t.pulse0 = s.pulse0 ∧ t.pulse1 = s.pulse1)) ∧
    (i = .init ∨ i = .restart ∨ i = .next ∨ t.cursor = s.cursor) ∧
    (i = .fill ∨ i = .isfin ∨ i = .next ∨ t.fault = s.fault) ∧
    (i = .fill ∨ ∀ a, memRead t.out a = memRead s.out a) ∧
    (∀ a, memRead t.led a = memRead s.led a) ∧
    t.ledCap = s.ledCap ∧ t.outSize = s.outSize ∧ t.host = s.host

/-- R22: but for INIT and RESTART a command moves the cursor only up, by at most 2, without wrapping, and in a good
configured state never past the end of the stream. -/
def Obligations.CursorOnlyGrows : Prop :=
  ∀ (i : Instr) (s t : State), exec i s = .next t → i ≠ .init → i ≠ .restart →
    s.cursor.toNat ≤ t.cursor.toNat ∧ t.cursor.toNat ≤ s.cursor.toNat + 2 ∧
    (virtLen s.cfg ≤ s.cursor.toNat → t.cursor = s.cursor) ∧
    (Inv s → s.valid = true → t.cursor.toNat ≤ virtLen s.cfg) ∧ virtLen s.cfg < 2 ^ 32

/-- R96, R98: in a good state every command answers a next state; none is refused and none stops the machine. (That
next state may record a fault of R94.) -/
def Obligations.GoodStatesRefuseNoCommand : Prop := ∀ (i : Instr) (s : State), Inv s → ∃ t, exec i s = .next t

/-- R19, R75, U8: while `valid` is 0 no command's answer, fault or output depends on the latched configuration, the
templates or the cursor. -/
def Obligations.InvalidStateHidesTheLatch : Prop :=
  ∀ (i : Instr) (s : State) (c : Settings) (p0 p1 : Byte) (cur : Word), s.valid = false →
    ∃ t u, exec i s = .next t ∧
      exec i { s with cfg := c, pulse0 := p0, pulse1 := p1, cursor := cur } = .next u ∧
      u.resp = t.resp ∧ u.fault = t.fault ∧ u.valid = t.valid ∧ u.sh = t.sh ∧ u.out = t.out ∧ u.led = t.led ∧
      (t.valid = true → u = t)

/-- R24, R25, R26, R29, R31: the invariant survives every step, whatever the host does. -/
def Obligations.InvariantKeptByEveryStep : Prop := ∀ s t : State, Inv s → step s = .next t → Inv t

/-- R24 to R26, R108: the invariant holds at reset. The empty memories and the two sizes there are the model's choices
(log entries 1 and 2). -/
def Obligations.InvariantHoldsAtReset : Prop := Inv State.reset

/-- R108: reset puts every register at its value and touches neither LED nor OUT; a block just powered on has the same
registers. -/
def Obligations.ResetSetsEveryRegister : Prop :=
  (∀ (s : State) (rest : List HostAction), s.host = .reset :: rest → ∃ t, step s = .next t ∧
    t.sh = ⟨0, 0, 0, 0, 0, 0, 0, 0⟩ ∧ t.cfg = ⟨0, 0, 0, 0, 0, 0, 0, 0⟩ ∧ t.pulse0 = 0 ∧ t.pulse1 = 0 ∧
    t.valid = false ∧ t.cursor = 0 ∧ t.fault = none ∧ (∀ a, memRead t.led a = memRead s.led a) ∧
    (∀ a, memRead t.out a = memRead s.out a) ∧ t.ledCap = s.ledCap ∧ t.outSize = s.outSize ∧ t.host = rest) ∧
  State.reset.sh = ⟨0, 0, 0, 0, 0, 0, 0, 0⟩ ∧ State.reset.cfg = ⟨0, 0, 0, 0, 0, 0, 0, 0⟩ ∧
  State.reset.pulse0 = 0 ∧ State.reset.pulse1 = 0 ∧ State.reset.valid = false ∧ State.reset.cursor = 0 ∧
  State.reset.fault = none

/-- R107, R109: with no action of the host the block holds its state and does nothing. -/
def Obligations.WaitingBlockHoldsItsState : Prop := ∀ s : State, s.host = [] → step s = .next s

/-- R29, R31, R43: a host write at an address LED or OUT has changes that byte and nothing else. -/
def Obligations.HostWritesOneByte : Prop :=
  ∀ (s : State) (a : Nat) (v : Byte) (rest : List HostAction),
    (s.host = .writeLed a v :: rest → a < 3 * s.ledCap → ∃ t, step s = .next t ∧
      t = { s with host := rest, led := t.led } ∧ memRead t.led a = some v ∧
      (∀ b, b ≠ a → memRead t.led b = memRead s.led b)) ∧
    (s.host = .writeOut a v :: rest → a < s.outSize → ∃ t, step s = .next t ∧
      t = { s with host := rest, out := t.out } ∧ memRead t.out a = some v ∧
      (∀ b, b ≠ a → memRead t.out b = memRead s.out b))

/-- R44, R47, R115: NEXT encodes the LED byte the host wrote last: a host write of the byte `v` that a data step encodes
decides that step's answer, the bit of `v` at the cursor in SINGLE packing, the pair of bits of `v` there in DOUBLE. -/
def Obligations.NextSeesTheLastLedWrite : Prop :=
  ∀ (s t : State) (off : Nat) (v : Byte) (rest : List HostAction), s.valid = true →
    s.cursor.toNat = s.cfg.prefixLen.toNat + off → off < 24 * s.cfg.count.toNat → off / 24 < s.ledCap →
    s.host = .writeLed (3 * (off / 24) + channelOffset (channelOf (off % 24 / 8))) v :: rest → step s = .next t →
    (s.cfg.packing = 0x00 → ∃ u, exec .next t = .next u ∧
      u.resp = some ((enc1 s (bitAt v (7 - off % 8))).setWidth 32)) ∧
    (s.cfg.packing ≠ 0x00 → off % 2 = 0 → ∃ u, exec .next t = .next u ∧
      u.resp = some ((enc2 s (bitAt v (7 - off % 8)) (bitAt v (6 - off % 8))).setWidth 32))

/-- The MODEL'S CHOICE of log entry 11 (DEDUCED from the extents of LED and OUT in 20_memory.md section 1): a host write
at an address the memory does not have stops the machine by name. -/
def Obligations.HostWriteOutsideMemoryStops : Prop :=
  ∀ (s : State) (a : Nat) (v : Byte) (rest : List HostAction),
    (s.host = .writeLed a v :: rest → 3 * s.ledCap ≤ a → step s = .fault (.noSuchLedAddress a)) ∧
    (s.host = .writeOut a v :: rest → s.outSize ≤ a → step s = .fault (.noSuchOutAddress a))
end

