-- ==== Sys2Proof/Laws/State.lean ====
section
/-!
SUPPORT. One lemma per field of State and per named update, true by rfl, so that no proof unfolds a record update; and
the registers after a reset (spec/70_reset_and_hazards.md R108).
-/

namespace Sys2Proof.Machine

/-! `setSh` -/
@[simp] theorem State.setSh_sh (c : Settings) (s : State) : (s.setSh c).sh = c := rfl
@[simp] theorem State.setSh_cfg (c : Settings) (s : State) : (s.setSh c).cfg = s.cfg := rfl
@[simp] theorem State.setSh_pulse0 (c : Settings) (s : State) : (s.setSh c).pulse0 = s.pulse0 := rfl
@[simp] theorem State.setSh_pulse1 (c : Settings) (s : State) : (s.setSh c).pulse1 = s.pulse1 := rfl
@[simp] theorem State.setSh_valid (c : Settings) (s : State) : (s.setSh c).valid = s.valid := rfl
@[simp] theorem State.setSh_cursor (c : Settings) (s : State) : (s.setSh c).cursor = s.cursor := rfl
@[simp] theorem State.setSh_fault (c : Settings) (s : State) : (s.setSh c).fault = s.fault := rfl
@[simp] theorem State.setSh_led (c : Settings) (s : State) : (s.setSh c).led = s.led := rfl
@[simp] theorem State.setSh_out (c : Settings) (s : State) : (s.setSh c).out = s.out := rfl
@[simp] theorem State.setSh_ledCap (c : Settings) (s : State) : (s.setSh c).ledCap = s.ledCap := rfl
@[simp] theorem State.setSh_outSize (c : Settings) (s : State) : (s.setSh c).outSize = s.outSize := rfl
@[simp] theorem State.setSh_resp (c : Settings) (s : State) : (s.setSh c).resp = s.resp := rfl
@[simp] theorem State.setSh_host (c : Settings) (s : State) : (s.setSh c).host = s.host := rfl

/-! `setCursor` -/
@[simp] theorem State.setCursor_sh (c : Word) (s : State) : (s.setCursor c).sh = s.sh := rfl
@[simp] theorem State.setCursor_cfg (c : Word) (s : State) : (s.setCursor c).cfg = s.cfg := rfl
@[simp] theorem State.setCursor_pulse0 (c : Word) (s : State) : (s.setCursor c).pulse0 = s.pulse0 := rfl
@[simp] theorem State.setCursor_pulse1 (c : Word) (s : State) : (s.setCursor c).pulse1 = s.pulse1 := rfl
@[simp] theorem State.setCursor_valid (c : Word) (s : State) : (s.setCursor c).valid = s.valid := rfl
@[simp] theorem State.setCursor_cursor (c : Word) (s : State) : (s.setCursor c).cursor = c := rfl
@[simp] theorem State.setCursor_fault (c : Word) (s : State) : (s.setCursor c).fault = s.fault := rfl
@[simp] theorem State.setCursor_led (c : Word) (s : State) : (s.setCursor c).led = s.led := rfl
@[simp] theorem State.setCursor_out (c : Word) (s : State) : (s.setCursor c).out = s.out := rfl
@[simp] theorem State.setCursor_ledCap (c : Word) (s : State) : (s.setCursor c).ledCap = s.ledCap := rfl
@[simp] theorem State.setCursor_outSize (c : Word) (s : State) : (s.setCursor c).outSize = s.outSize := rfl
@[simp] theorem State.setCursor_resp (c : Word) (s : State) : (s.setCursor c).resp = s.resp := rfl
@[simp] theorem State.setCursor_host (c : Word) (s : State) : (s.setCursor c).host = s.host := rfl

/-! `setValid` -/
@[simp] theorem State.setValid_sh (b : Bool) (s : State) : (s.setValid b).sh = s.sh := rfl
@[simp] theorem State.setValid_cfg (b : Bool) (s : State) : (s.setValid b).cfg = s.cfg := rfl
@[simp] theorem State.setValid_pulse0 (b : Bool) (s : State) : (s.setValid b).pulse0 = s.pulse0 := rfl
@[simp] theorem State.setValid_pulse1 (b : Bool) (s : State) : (s.setValid b).pulse1 = s.pulse1 := rfl
@[simp] theorem State.setValid_valid (b : Bool) (s : State) : (s.setValid b).valid = b := rfl
@[simp] theorem State.setValid_cursor (b : Bool) (s : State) : (s.setValid b).cursor = s.cursor := rfl
@[simp] theorem State.setValid_fault (b : Bool) (s : State) : (s.setValid b).fault = s.fault := rfl
@[simp] theorem State.setValid_led (b : Bool) (s : State) : (s.setValid b).led = s.led := rfl
@[simp] theorem State.setValid_out (b : Bool) (s : State) : (s.setValid b).out = s.out := rfl
@[simp] theorem State.setValid_ledCap (b : Bool) (s : State) : (s.setValid b).ledCap = s.ledCap := rfl
@[simp] theorem State.setValid_outSize (b : Bool) (s : State) : (s.setValid b).outSize = s.outSize := rfl
@[simp] theorem State.setValid_resp (b : Bool) (s : State) : (s.setValid b).resp = s.resp := rfl
@[simp] theorem State.setValid_host (b : Bool) (s : State) : (s.setValid b).host = s.host := rfl

/-! `latch` -/
@[simp] theorem State.latch_sh (c : Settings) (p : Byte × Byte) (s : State) : (s.latch c p).sh = s.sh := rfl
@[simp] theorem State.latch_cfg (c : Settings) (p : Byte × Byte) (s : State) : (s.latch c p).cfg = c := rfl
@[simp] theorem State.latch_pulse0 (c : Settings) (p : Byte × Byte) (s : State) : (s.latch c p).pulse0 = p.1 := rfl
@[simp] theorem State.latch_pulse1 (c : Settings) (p : Byte × Byte) (s : State) : (s.latch c p).pulse1 = p.2 := rfl
@[simp] theorem State.latch_valid (c : Settings) (p : Byte × Byte) (s : State) : (s.latch c p).valid = true := rfl
@[simp] theorem State.latch_cursor (c : Settings) (p : Byte × Byte) (s : State) : (s.latch c p).cursor = 0 := rfl
@[simp] theorem State.latch_fault (c : Settings) (p : Byte × Byte) (s : State) : (s.latch c p).fault = s.fault := rfl
@[simp] theorem State.latch_led (c : Settings) (p : Byte × Byte) (s : State) : (s.latch c p).led = s.led := rfl
@[simp] theorem State.latch_out (c : Settings) (p : Byte × Byte) (s : State) : (s.latch c p).out = s.out := rfl
@[simp] theorem State.latch_ledCap (c : Settings) (p : Byte × Byte) (s : State) : (s.latch c p).ledCap = s.ledCap := rfl
@[simp] theorem State.latch_outSize (c : Settings) (p : Byte × Byte) (s : State) : (s.latch c p).outSize = s.outSize := rfl
@[simp] theorem State.latch_resp (c : Settings) (p : Byte × Byte) (s : State) : (s.latch c p).resp = s.resp := rfl
@[simp] theorem State.latch_host (c : Settings) (p : Byte × Byte) (s : State) : (s.latch c p).host = s.host := rfl

/-! `setLed` -/
@[simp] theorem State.setLed_sh (m : Memory) (s : State) : (s.setLed m).sh = s.sh := rfl
@[simp] theorem State.setLed_cfg (m : Memory) (s : State) : (s.setLed m).cfg = s.cfg := rfl
@[simp] theorem State.setLed_pulse0 (m : Memory) (s : State) : (s.setLed m).pulse0 = s.pulse0 := rfl
@[simp] theorem State.setLed_pulse1 (m : Memory) (s : State) : (s.setLed m).pulse1 = s.pulse1 := rfl
@[simp] theorem State.setLed_valid (m : Memory) (s : State) : (s.setLed m).valid = s.valid := rfl
@[simp] theorem State.setLed_cursor (m : Memory) (s : State) : (s.setLed m).cursor = s.cursor := rfl
@[simp] theorem State.setLed_fault (m : Memory) (s : State) : (s.setLed m).fault = s.fault := rfl
@[simp] theorem State.setLed_led (m : Memory) (s : State) : (s.setLed m).led = m := rfl
@[simp] theorem State.setLed_out (m : Memory) (s : State) : (s.setLed m).out = s.out := rfl
@[simp] theorem State.setLed_ledCap (m : Memory) (s : State) : (s.setLed m).ledCap = s.ledCap := rfl
@[simp] theorem State.setLed_outSize (m : Memory) (s : State) : (s.setLed m).outSize = s.outSize := rfl
@[simp] theorem State.setLed_resp (m : Memory) (s : State) : (s.setLed m).resp = s.resp := rfl
@[simp] theorem State.setLed_host (m : Memory) (s : State) : (s.setLed m).host = s.host := rfl

/-! `setOut` -/
@[simp] theorem State.setOut_sh (m : Memory) (s : State) : (s.setOut m).sh = s.sh := rfl
@[simp] theorem State.setOut_cfg (m : Memory) (s : State) : (s.setOut m).cfg = s.cfg := rfl
@[simp] theorem State.setOut_pulse0 (m : Memory) (s : State) : (s.setOut m).pulse0 = s.pulse0 := rfl
@[simp] theorem State.setOut_pulse1 (m : Memory) (s : State) : (s.setOut m).pulse1 = s.pulse1 := rfl
@[simp] theorem State.setOut_valid (m : Memory) (s : State) : (s.setOut m).valid = s.valid := rfl
@[simp] theorem State.setOut_cursor (m : Memory) (s : State) : (s.setOut m).cursor = s.cursor := rfl
@[simp] theorem State.setOut_fault (m : Memory) (s : State) : (s.setOut m).fault = s.fault := rfl
@[simp] theorem State.setOut_led (m : Memory) (s : State) : (s.setOut m).led = s.led := rfl
@[simp] theorem State.setOut_out (m : Memory) (s : State) : (s.setOut m).out = m := rfl
@[simp] theorem State.setOut_ledCap (m : Memory) (s : State) : (s.setOut m).ledCap = s.ledCap := rfl
@[simp] theorem State.setOut_outSize (m : Memory) (s : State) : (s.setOut m).outSize = s.outSize := rfl
@[simp] theorem State.setOut_resp (m : Memory) (s : State) : (s.setOut m).resp = s.resp := rfl
@[simp] theorem State.setOut_host (m : Memory) (s : State) : (s.setOut m).host = s.host := rfl

/-! `setHost` -/
@[simp] theorem State.setHost_sh (h : List HostAction) (s : State) : (s.setHost h).sh = s.sh := rfl
@[simp] theorem State.setHost_cfg (h : List HostAction) (s : State) : (s.setHost h).cfg = s.cfg := rfl
@[simp] theorem State.setHost_pulse0 (h : List HostAction) (s : State) : (s.setHost h).pulse0 = s.pulse0 := rfl
@[simp] theorem State.setHost_pulse1 (h : List HostAction) (s : State) : (s.setHost h).pulse1 = s.pulse1 := rfl
@[simp] theorem State.setHost_valid (h : List HostAction) (s : State) : (s.setHost h).valid = s.valid := rfl
@[simp] theorem State.setHost_cursor (h : List HostAction) (s : State) : (s.setHost h).cursor = s.cursor := rfl
@[simp] theorem State.setHost_fault (h : List HostAction) (s : State) : (s.setHost h).fault = s.fault := rfl
@[simp] theorem State.setHost_led (h : List HostAction) (s : State) : (s.setHost h).led = s.led := rfl
@[simp] theorem State.setHost_out (h : List HostAction) (s : State) : (s.setHost h).out = s.out := rfl
@[simp] theorem State.setHost_ledCap (h : List HostAction) (s : State) : (s.setHost h).ledCap = s.ledCap := rfl
@[simp] theorem State.setHost_outSize (h : List HostAction) (s : State) : (s.setHost h).outSize = s.outSize := rfl
@[simp] theorem State.setHost_resp (h : List HostAction) (s : State) : (s.setHost h).resp = s.resp := rfl
@[simp] theorem State.setHost_host (h : List HostAction) (s : State) : (s.setHost h).host = h := rfl

/-! `respond` -/
@[simp] theorem State.respond_sh (v : Word) (s : State) : (s.respond v).sh = s.sh := rfl
@[simp] theorem State.respond_cfg (v : Word) (s : State) : (s.respond v).cfg = s.cfg := rfl
@[simp] theorem State.respond_pulse0 (v : Word) (s : State) : (s.respond v).pulse0 = s.pulse0 := rfl
@[simp] theorem State.respond_pulse1 (v : Word) (s : State) : (s.respond v).pulse1 = s.pulse1 := rfl
@[simp] theorem State.respond_valid (v : Word) (s : State) : (s.respond v).valid = s.valid := rfl
@[simp] theorem State.respond_cursor (v : Word) (s : State) : (s.respond v).cursor = s.cursor := rfl
@[simp] theorem State.respond_fault (v : Word) (s : State) : (s.respond v).fault = s.fault := rfl
@[simp] theorem State.respond_led (v : Word) (s : State) : (s.respond v).led = s.led := rfl
@[simp] theorem State.respond_out (v : Word) (s : State) : (s.respond v).out = s.out := rfl
@[simp] theorem State.respond_ledCap (v : Word) (s : State) : (s.respond v).ledCap = s.ledCap := rfl
@[simp] theorem State.respond_outSize (v : Word) (s : State) : (s.respond v).outSize = s.outSize := rfl
@[simp] theorem State.respond_resp (v : Word) (s : State) : (s.respond v).resp = some v := rfl
@[simp] theorem State.respond_host (v : Word) (s : State) : (s.respond v).host = s.host := rfl

/-! `recordFault` -/
@[simp] theorem State.recordFault_sh (k : FaultKind) (w : Word) (s : State) : (s.recordFault k w).sh = s.sh := rfl
@[simp] theorem State.recordFault_cfg (k : FaultKind) (w : Word) (s : State) : (s.recordFault k w).cfg = s.cfg := rfl
@[simp] theorem State.recordFault_pulse0 (k : FaultKind) (w : Word) (s : State) : (s.recordFault k w).pulse0 = s.pulse0 := rfl
@[simp] theorem State.recordFault_pulse1 (k : FaultKind) (w : Word) (s : State) : (s.recordFault k w).pulse1 = s.pulse1 := rfl
@[simp] theorem State.recordFault_valid (k : FaultKind) (w : Word) (s : State) : (s.recordFault k w).valid = s.valid := rfl
@[simp] theorem State.recordFault_cursor (k : FaultKind) (w : Word) (s : State) : (s.recordFault k w).cursor = s.cursor := rfl
@[simp] theorem State.recordFault_fault (k : FaultKind) (w : Word) (s : State) : (s.recordFault k w).fault = some (k, w) := rfl
@[simp] theorem State.recordFault_led (k : FaultKind) (w : Word) (s : State) : (s.recordFault k w).led = s.led := rfl
@[simp] theorem State.recordFault_out (k : FaultKind) (w : Word) (s : State) : (s.recordFault k w).out = s.out := rfl
@[simp] theorem State.recordFault_ledCap (k : FaultKind) (w : Word) (s : State) : (s.recordFault k w).ledCap = s.ledCap := rfl
@[simp] theorem State.recordFault_outSize (k : FaultKind) (w : Word) (s : State) : (s.recordFault k w).outSize = s.outSize := rfl
@[simp] theorem State.recordFault_resp (k : FaultKind) (w : Word) (s : State) : (s.recordFault k w).resp = none := rfl
@[simp] theorem State.recordFault_host (k : FaultKind) (w : Word) (s : State) : (s.recordFault k w).host = s.host := rfl

/-! `resetBlock` -/
@[simp] theorem resetBlock_sh (s : State) : (resetBlock s).sh = Settings.reset := rfl
@[simp] theorem resetBlock_cfg (s : State) : (resetBlock s).cfg = Settings.reset := rfl
@[simp] theorem resetBlock_pulse0 (s : State) : (resetBlock s).pulse0 = 0 := rfl
@[simp] theorem resetBlock_pulse1 (s : State) : (resetBlock s).pulse1 = 0 := rfl
@[simp] theorem resetBlock_valid (s : State) : (resetBlock s).valid = false := rfl
@[simp] theorem resetBlock_cursor (s : State) : (resetBlock s).cursor = 0 := rfl
@[simp] theorem resetBlock_fault (s : State) : (resetBlock s).fault = none := rfl
@[simp] theorem resetBlock_led (s : State) : (resetBlock s).led = s.led := rfl
@[simp] theorem resetBlock_out (s : State) : (resetBlock s).out = s.out := rfl
@[simp] theorem resetBlock_ledCap (s : State) : (resetBlock s).ledCap = s.ledCap := rfl
@[simp] theorem resetBlock_outSize (s : State) : (resetBlock s).outSize = s.outSize := rfl
@[simp] theorem resetBlock_resp (s : State) : (resetBlock s).resp = none := rfl
@[simp] theorem resetBlock_host (s : State) : (resetBlock s).host = s.host := rfl

end Sys2Proof.Machine
end

