-- ==== Sys2Proof/Laws/Ops.lean ====
section
/-!
SUPPORT. What the shared operations do, said once each: reading after writing, the canonical form of memory and its
size under every memory operation, the check of `valid`, raising a fault, taking a command and performing a host
action.
-/

namespace Sys2Proof.Machine

/-! ### Memory -/

/-- A byte reads as the one just written there. -/
@[simp] theorem memRead_memWrite_same (m : Memory) (a : Nat) (v : Byte) : memRead (memWrite m a v) a = some v := by
  induction m with
  | nil => simp [memWrite, memRead]
  | cons c m ih =>
    obtain ⟨b, x⟩ := c
    simp only [memWrite]
    split
    · simp [memRead]
    · split
      · simp [memRead]
      · next h => simp [memRead, h, ih]

/-- A write leaves every other address alone. -/
theorem memRead_memWrite_other (m : Memory) {a b : Nat} (v : Byte) (h : b ≠ a) :
    memRead (memWrite m a v) b = memRead m b := by
  induction m with
  | nil => simp [memWrite, memRead, h]
  | cons c m ih =>
    obtain ⟨d, x⟩ := c
    simp only [memWrite]
    split
    · simp [memRead, h]
    · split
      · next h' => subst h'; simp [memRead, h]
      · simp [memRead, ih]

/-- Every entry after a write is the one written or was there before. -/
theorem mem_memWrite {m : Memory} {a : Nat} {v : Byte} {c : Host.Cell} (h : c ∈ memWrite m a v) :
    c = (a, v) ∨ c ∈ m := by
  induction m with
  | nil => simpa [memWrite] using h
  | cons d m ih =>
    obtain ⟨b, x⟩ := d
    simp only [memWrite] at h
    split at h
    · simpa using h
    · split at h
      · rcases List.mem_cons.1 h with h | h
        · exact .inl h
        · exact .inr (List.mem_cons_of_mem _ h)
      · rcases List.mem_cons.1 h with h | h
        · exact .inr (h ▸ List.mem_cons_self ..)
        · exact (ih h).imp id (List.mem_cons_of_mem _)

/-- A write keeps the canonical form. -/
theorem memWrite_wf {m : Memory} (a : Nat) (v : Byte) (h : m.wf) : (memWrite m a v).wf := by
  induction m with
  | nil => simp [memWrite]
  | cons c m ih =>
    obtain ⟨b, x⟩ := c
    obtain ⟨hb, hm⟩ := List.pairwise_cons.1 h
    simp only [memWrite]
    split
    · next hab =>
      refine List.pairwise_cons.2 ⟨fun d hd => ?_, h⟩
      rcases List.mem_cons.1 hd with rfl | hd
      · exact hab
      · exact hab.trans (hb d hd)
    · split
      · next hab => subst hab; exact List.pairwise_cons.2 ⟨hb, hm⟩
      · refine List.pairwise_cons.2 ⟨fun d hd => ?_, ih hm⟩
        rcases mem_memWrite hd with rfl | hd
        · show b < a
          omega
        · exact hb d hd

/-- A write at an address of the memory stays inside it. -/
theorem memWrite_below {m : Memory} {n a : Nat} (v : Byte) (h : m.below n) (ha : a < n) :
    (memWrite m a v).below n := fun _ hc =>
  (mem_memWrite hc).elim (fun e => e ▸ ha) (h _)

/-- What a run of bytes written from `a` reads as: the bytes inside the run, the memory before outside it. -/
theorem memRead_memWriteBytes (vs : List Byte) (m : Memory) (a b : Nat) :
    memRead (memWriteBytes m a vs) b =
      if a ≤ b ∧ b < a + vs.length then vs[b - a]? else memRead m b := by
  induction vs generalizing m a with
  | nil =>
    rw [if_neg (by simp)]
    rfl
  | cons v vs ih =>
    rw [memWriteBytes, ih]
    rcases Nat.lt_trichotomy b a with h | rfl | h
    · rw [if_neg (by omega), if_neg (by omega), memRead_memWrite_other _ _ (by omega)]
    · rw [if_neg (by omega), if_pos (by simp), memRead_memWrite_same]
      simp
    · obtain ⟨k, rfl⟩ : ∃ k, b = a + 1 + k := ⟨b - (a + 1), by omega⟩
      simp only [List.length_cons, Nat.le_add_right, true_and]
      by_cases hk : k < vs.length
      · rw [if_pos (by omega), if_pos (by omega)]
        have e : a + 1 + k - a = k + 1 := by omega
        simp [e]
      · rw [if_neg (by omega), if_neg (by omega), memRead_memWrite_other _ _ (by omega)]

/-- Writing a run of bytes keeps the canonical form. -/
theorem memWriteBytes_wf (vs : List Byte) {m : Memory} (a : Nat) (h : m.wf) : (memWriteBytes m a vs).wf := by
  induction vs generalizing m a with
  | nil => exact h
  | cons v vs ih => exact ih (a + 1) (memWrite_wf a v h)

/-- A run of bytes that ends inside the memory stays inside it. -/
theorem memWriteBytes_below (vs : List Byte) {m : Memory} {n : Nat} (a : Nat) (h : m.below n)
    (ha : a + vs.length ≤ n) : (memWriteBytes m a vs).below n := by
  induction vs generalizing m a with
  | nil => exact h
  | cons v vs ih =>
    simp only [List.length_cons] at ha
    exact ih (a + 1) (memWrite_below v h (by omega)) (by omega)

/-- The reset memories are in canonical form. -/
theorem reset_memories_wf : State.reset.led.wf ∧ State.reset.out.wf := by decide

/-! ### Answers and faults -/

/-- Raising a fault answers exactly the state with the fault recorded (R95). -/
@[simp] theorem raise_eq_next {k : FaultKind} {w : Word} {s t : State} :
    raise k w s = .next t ↔ s.recordFault k w = t := by
  simp [raise]

/-- What the check of `valid` can answer: the body's outcome, or the fault Unconfigured (R94, R98). -/
theorem requireValid_cases (i : Instr) (s : State) (body : Host.Outcome State Fault Refusal) :
    (s.valid = true ∧ requireValid i s body = body) ∨
    (s.valid = false ∧ requireValid i s body = .next (s.recordFault .unconfigured (encode i))) := by
  cases h : s.valid <;> simp [requireValid, h, raise]

/-- The shared effect of the SET commands: the shadow record and the response, nothing else. -/
theorem setShadow_eq (c : Settings) (s : State) : setShadow c s = .next { s with sh := c, resp := some 0 } := rfl

/-- What taking a command can do: halt, run the decoded command, or record IllegalCommand (R23, R54, R98). -/
theorem takeCommand_cases (w : Word) (s : State) :
    (∃ k old, s.fault = some (k, old) ∧ takeCommand w s = .fault (.halted k old)) ∨
    (s.fault = none ∧ ∃ i, decode w = .ok i ∧ takeCommand w s = exec i s) ∨
    (s.fault = none ∧ (∃ e, decode w = .error e) ∧ takeCommand w s = .next (s.recordFault .illegalCommand w)) := by
  unfold takeCommand
  split
  · next k old h => exact .inl ⟨k, old, h, rfl⟩
  · next h =>
    split
    · next i hi => exact .inr (.inl ⟨h, i, hi, rfl⟩)
    · next e he => exact .inr (.inr ⟨h, ⟨e, he⟩, rfl⟩)

/-- What a step that answers can have done (R43): wait, take a command, write a byte of the host's, reset. -/
theorem step_cases {s t : State} (h : step s = .next t) :
    (s.host = [] ∧ t = s) ∨
    (∃ w rest, s.host = .command w :: rest ∧ takeCommand w (s.setHost rest) = .next t) ∨
    (∃ a v rest, s.host = .writeLed a v :: rest ∧ a < 3 * s.ledCap ∧
      t = (s.setHost rest).setLed (memWrite s.led a v)) ∨
    (∃ a v rest, s.host = .writeOut a v :: rest ∧ a < s.outSize ∧
      t = (s.setHost rest).setOut (memWrite s.out a v)) ∨
    (∃ rest, s.host = .reset :: rest ∧ t = resetBlock (s.setHost rest)) := by
  unfold step performNext at h
  split at h
  · next e => exact .inl ⟨e, by simpa using h.symm⟩
  · next a rest e =>
    cases a with
    | command w => exact .inr (.inl ⟨w, rest, e, h⟩)
    | writeLed a v =>
      simp only [perform, hostWriteLed] at h
      split at h
      · next ha => exact .inr (.inr (.inl ⟨a, v, rest, e, ha, by simpa using h.symm⟩))
      · cases h
    | writeOut a v =>
      simp only [perform, hostWriteOut] at h
      split at h
      · next ha => exact .inr (.inr (.inr (.inl ⟨a, v, rest, e, ha, by simpa using h.symm⟩)))
      · cases h
    | reset => exact .inr (.inr (.inr (.inr ⟨rest, e, by simpa [perform] using h.symm⟩)))

/-- The word of `withFetchWord` is the one the next step takes. -/
theorem step_withFetchWord (s : State) (nbits w : Nat) :
    step (s.withFetchWord nbits w) = takeCommand (tableWord nbits w) s := rfl

end Sys2Proof.Machine
end

