-- ==== Sys2Proof/Laws/Exec.lean ====
section
/-!
SUPPORT. What a command can do, said once: one lemma per meaning, and `exec_cases`, which every statement about all
commands can be derived from.
-/

namespace Sys2Proof.Machine

/-- What a command that answers can have done. A fault is `raised`; nothing else writes `fault`. -/
inductive Effect : Instr → State → State → Prop where
  /-- A SET command (R61 to R68): one shadow record for another, response 0. -/
  | set {i : Instr} {s : State} (h : IsSet i) (c : Settings) : Effect i s ((s.setSh c).respond 0)
  /-- INIT of a valid shadow configuration (R75). -/
  | latched {s : State} (h : validate s.sh = .ok) : Effect .init s ((s.latch s.sh (compile s.sh)).respond 0)
  /-- INIT of an invalid one (R75). -/
  | rejected {s : State} (h : validate s.sh ≠ .ok) :
    Effect .init s ((s.setValid false).respond (zext32 (statusCode (validate s.sh))))
  /-- REQLEN (R81). -/
  | length (s : State) : Effect .reqlen s (s.respond (BitVec.ofNat 32 (physLen s.sh)))
  /-- FILL (R82). -/
  | filled {s : State} (hv : s.valid = true) (hl : physLen s.cfg ≤ s.outSize) (hn : s.cfg.count.toNat ≤ s.ledCap) :
    Effect .fill s ((s.setOut (memWriteBytes s.out 0 (stream s))).respond 0)
  /-- RESTART (R83). -/
  | restarted (s : State) : Effect .restart s ((s.setCursor 0).respond 0)
  /-- ISFIN (R84). -/
  | reported {s : State} (hv : s.valid = true) : Effect .isfin s (s.respond (if finished s then 1 else 0))
  /-- NEXT in the Prefix or Suffix zone (R86). -/
  | guarded {s : State} (hv : s.valid = true)
    (hz : zone s.cfg s.cursor.toNat = .prefixZone ∨ zone s.cfg s.cursor.toNat = .suffixZone) :
    Effect .next s ((s.setCursor (s.cursor + 1)).respond 0)
  /-- NEXT in the Data zone, SINGLE packing (R86). -/
  | single {s : State} (hv : s.valid = true) (hz : zone s.cfg s.cursor.toNat = .dataZone)
    (hp : s.cfg.packing = 0x00) (hn : (s.cursor.toNat - s.cfg.prefixLen.toNat) / 24 < s.ledCap) (r : Word) :
    Effect .next s ((s.setCursor (s.cursor + 1)).respond r)
  /-- NEXT in the Data zone, DOUBLE packing, even bit index (R86). -/
  | double {s : State} (hv : s.valid = true) (hz : zone s.cfg s.cursor.toNat = .dataZone)
    (hp : s.cfg.packing ≠ 0x00) (hn : (s.cursor.toNat - s.cfg.prefixLen.toNat) / 24 < s.ledCap)
    (hb : (s.cursor.toNat - s.cfg.prefixLen.toNat) % 8 % 2 = 0) (r : Word) :
    Effect .next s ((s.setCursor (s.cursor + 2)).respond r)
  /-- NEXT in the Done zone (R86, R89). -/
  | done {s : State} (hv : s.valid = true) (hz : zone s.cfg s.cursor.toNat = .doneZone) : Effect .next s (s.respond 0)
  /-- Unconfigured (R94). -/
  | unconfigured {i : Instr} {s : State} (hi : i = .fill ∨ i = .isfin ∨ i = .next) (hv : s.valid = false) :
    Effect i s (s.recordFault .unconfigured (encode i))
  /-- BufferTooSmall (R94). -/
  | tooSmall {s : State} (hv : s.valid = true) (hl : s.outSize < physLen s.cfg) :
    Effect .fill s (s.recordFault .bufferTooSmall (encode .fill))
  /-- LedRange of FILL (R94). -/
  | fillRange {s : State} (hv : s.valid = true) (hl : physLen s.cfg ≤ s.outSize) (hn : s.ledCap < s.cfg.count.toNat) :
    Effect .fill s (s.recordFault .ledRange (encode .fill))
  /-- LedRange of NEXT (R94). -/
  | nextRange {s : State} (hv : s.valid = true) (hz : zone s.cfg s.cursor.toNat = .dataZone)
    (hn : s.ledCap ≤ (s.cursor.toNat - s.cfg.prefixLen.toNat) / 24) :
    Effect .next s (s.recordFault .ledRange (encode .next))

/-- Everything INIT can do (R75). -/
theorem execInit_cases {s t : State} (h : execInit s = .next t) : Effect .init s t := by
  simp only [execInit] at h
  split at h
  · next hv =>
    cases h
    exact .latched hv
  · next hv =>
    cases h
    exact .rejected hv

/-- Everything FILL can do (R82). -/
theorem execFill_cases {s t : State} (h : execFill s = .next t) : Effect .fill s t := by
  unfold execFill at h
  obtain ⟨hv, e⟩ | ⟨hv, e⟩ := requireValid_cases .fill s
    (if s.outSize < physLen s.cfg then raise .bufferTooSmall (encode .fill) s
      else if s.ledCap < s.cfg.count.toNat then raise .ledRange (encode .fill) s
      else .next ((s.setOut (memWriteBytes s.out 0 (stream s))).respond 0))
  · rw [e] at h
    split at h
    · next hl =>
      rw [raise_eq_next] at h
      exact h ▸ .tooSmall hv hl
    · next hl =>
      split at h
      · next hn =>
        rw [raise_eq_next] at h
        exact h ▸ .fillRange hv (Nat.le_of_not_lt hl) hn
      · next hn =>
        cases h
        exact .filled hv (Nat.le_of_not_lt hl) (Nat.le_of_not_lt hn)
  · rw [e] at h
    cases h
    exact .unconfigured (.inl rfl) hv

/-- Everything ISFIN can do (R84). -/
theorem execIsfin_cases {s t : State} (h : execIsfin s = .next t) : Effect .isfin s t := by
  unfold execIsfin at h
  obtain ⟨hv, e⟩ | ⟨hv, e⟩ := requireValid_cases .isfin s (.next (s.respond (if finished s then 1 else 0)))
  · rw [e] at h
    cases h
    exact .reported hv
  · rw [e] at h
    cases h
    exact .unconfigured (.inr (.inl rfl)) hv

/-- Everything a data step of NEXT can do (R86). -/
theorem nextData_cases {s t : State} (hv : s.valid = true) (hz : zone s.cfg s.cursor.toNat = .dataZone)
    (h : nextData (s.cursor.toNat - s.cfg.prefixLen.toNat) s = .next t) : Effect .next s t := by
  simp only [nextData] at h
  split at h
  · next hn =>
    rw [raise_eq_next] at h
    exact h ▸ .nextRange hv hz hn
  · next hn =>
    split at h
    · next hp =>
      cases h
      exact .single hv hz hp (Nat.lt_of_not_le hn) _
    · next hp =>
      split at h
      · next hb =>
        cases h
        exact .double hv hz hp (Nat.lt_of_not_le hn) hb _
      · cases h

/-- Everything NEXT can do (R86). -/
theorem execNext_cases {s t : State} (h : execNext s = .next t) : Effect .next s t := by
  cases hv : s.valid with
  | false =>
    simp only [execNext, requireValid, hv, Bool.false_eq_true, if_false, raise_eq_next] at h
    exact h ▸ .unconfigured (.inr (.inr rfl)) hv
  | true =>
    simp only [execNext, requireValid, hv, if_true] at h
    split at h
    · next hz =>
      cases h
      exact .guarded hv (.inl hz)
    · next hz => exact nextData_cases hv hz h
    · next hz =>
      cases h
      exact .guarded hv (.inr hz)
    · next hz =>
      cases h
      exact .done hv hz

/-- Everything a command can do. -/
theorem exec_cases {i : Instr} {s t : State} (h : exec i s = .next t) : Effect i s t := by
  cases i with
  | setpack v => cases h; exact .set trivial _
  | setpl0 v => cases h; exact .set trivial _
  | setpl1 v => cases h; exact .set trivial _
  | setfb0 v => cases h; exact .set trivial _
  | setord v => cases h; exact .set trivial _
  | setpre v => cases h; exact .set trivial _
  | setsuf v => cases h; exact .set trivial _
  | setcnt v => cases h; exact .set trivial _
  | init => exact execInit_cases h
  | reqlen => cases h; exact .length s
  | fill => exact execFill_cases h
  | restart => cases h; exact .restarted s
  | isfin => exact execIsfin_cases h
  | next => exact execNext_cases h

/-- What a cursor in the Prefix zone satisfies (R85). -/
theorem prefixZone_bounds {c : Settings} {pos : Nat} (h : zone c pos = .prefixZone) : pos < c.prefixLen.toNat := by
  unfold zone at h
  split_ifs at h
  omega

/-- What a cursor in the Data zone satisfies (R85). -/
theorem dataZone_bounds {c : Settings} {pos : Nat} (h : zone c pos = .dataZone) :
    c.prefixLen.toNat ≤ pos ∧ pos < c.prefixLen.toNat + 24 * c.count.toNat := by
  unfold zone at h
  split_ifs at h
  omega

/-- What a cursor in the Suffix zone satisfies (R85). -/
theorem suffixZone_bounds {c : Settings} {pos : Nat} (h : zone c pos = .suffixZone) :
    c.prefixLen.toNat + 24 * c.count.toNat ≤ pos ∧ pos < virtLen c := by
  unfold zone at h
  split_ifs at h
  omega

/-- What a cursor in the Done zone satisfies (R85). -/
theorem doneZone_bounds {c : Settings} {pos : Nat} (h : zone c pos = .doneZone) : virtLen c ≤ pos := by
  unfold zone at h
  split_ifs at h
  omega

/-- Every configuration's virtual length fits the cursor (R9, R22). -/
theorem virtLen_le (c : Settings) : virtLen c ≤ 1703910 := by
  have hp := c.prefixLen.isLt
  have hn := c.count.isLt
  have hs := c.suffixLen.isLt
  unfold virtLen
  omega

end Sys2Proof.Machine
end

