-- ==== Sys2Proof/Laws/PerInstr.lean ====
section
/-!
SUPPORT. Statements per command, about its syntax: the opcode byte of its word (spec/30_encoding.md R53).
-/

namespace Sys2Proof

/-- The opcode of each command (R53). -/
def Laws.opcode : Instr → Byte
  | .setpack _ => 0x10
  | .setpl0 _ => 0x11
  | .setpl1 _ => 0x12
  | .setfb0 _ => 0x13
  | .setord _ => 0x14
  | .setpre _ => 0x15
  | .setsuf _ => 0x16
  | .setcnt _ => 0x17
  | .init => 0x20
  | .reqlen => 0x30
  | .fill => 0x31
  | .restart => 0x32
  | .isfin => 0x33
  | .next => 0x34

/-- Bits 31:24 of `(OP << 24) | IMM` are the opcode when the immediate lies in bits 23:0 (R50, R60). -/
theorem opField_encodeWord (op : Byte) {imm : Word} (h : ∀ i, 24 ≤ i → imm.getLsbD i = false) :
    opField (encodeWord op imm) = op := by
  apply BitVec.eq_of_getLsbD_eq
  intro i hi
  have e := h (24 + i) (by omega)
  rw [BitVec.getLsbD_eq_getElem (by omega)] at e
  simp [opField, encodeWord, hi, e, show 24 + i < 32 by omega]

/-- Bits 31:24 of a word of format C8 are its opcode (R50). -/
@[simp] theorem opField_encodeC8 (op v : Byte) : opField (encodeC8 op v) = op :=
  opField_encodeWord op fun i hi => by simp [BitVec.getLsbD_of_ge v i (by omega)]

/-- Bits 31:24 of a word of format C16 are its opcode (R50). -/
@[simp] theorem opField_encodeC16 (op : Byte) (v : Half) : opField (encodeC16 op v) = op :=
  opField_encodeWord op fun i hi => by simp [BitVec.getLsbD_of_ge v i (by omega)]

/-- Bits 31:24 of a word of format C0 are its opcode (R50). -/
@[simp] theorem opField_encodeC0 (op : Byte) : opField (encodeC0 op) = op :=
  opField_encodeWord op fun i _ => by simp

/-- The word of a command carries the command's opcode in bits 31:24. -/
def Laws.Opcode.Statement (i : Instr) : Prop := opField (encode i) = Laws.opcode i

theorem Laws.Opcode.setpack (v : Byte) : Laws.Opcode.Statement (.setpack v) := opField_encodeC8 _ v
theorem Laws.Opcode.setpl0 (v : Byte) : Laws.Opcode.Statement (.setpl0 v) := opField_encodeC8 _ v
theorem Laws.Opcode.setpl1 (v : Byte) : Laws.Opcode.Statement (.setpl1 v) := opField_encodeC8 _ v
theorem Laws.Opcode.setfb0 (v : Byte) : Laws.Opcode.Statement (.setfb0 v) := opField_encodeC8 _ v
theorem Laws.Opcode.setord (v : Byte) : Laws.Opcode.Statement (.setord v) := opField_encodeC8 _ v
theorem Laws.Opcode.setpre (v : Half) : Laws.Opcode.Statement (.setpre v) := opField_encodeC16 _ v
theorem Laws.Opcode.setsuf (v : Half) : Laws.Opcode.Statement (.setsuf v) := opField_encodeC16 _ v
theorem Laws.Opcode.setcnt (v : Half) : Laws.Opcode.Statement (.setcnt v) := opField_encodeC16 _ v
theorem Laws.Opcode.init : Laws.Opcode.Statement .init := opField_encodeC0 _
theorem Laws.Opcode.reqlen : Laws.Opcode.Statement .reqlen := opField_encodeC0 _
theorem Laws.Opcode.fill : Laws.Opcode.Statement .fill := opField_encodeC0 _
theorem Laws.Opcode.restart : Laws.Opcode.Statement .restart := opField_encodeC0 _
theorem Laws.Opcode.isfin : Laws.Opcode.Statement .isfin := opField_encodeC0 _
theorem Laws.Opcode.next : Laws.Opcode.Statement .next := opField_encodeC0 _

end Sys2Proof
end

