-- ==== Sys2Proof/Tests/Slice0.lean ====
section
/-!
SUPPORT. Tests of the model against the vectors of spec/95_test_vectors.md (their numbers stand in the comments), the
smoke test of the well-formedness checks, and a witness for the hypotheses of every obligation that has any.
-/

namespace Sys2Proof.Tests

open Sys2Proof.Machine

/-! ### Helpers -/

/-- A component of the next state an outcome answers. -/
def after {α : Type} (o : Host.Outcome State Fault Refusal) (f : State → α) : Option α :=
  match o with
  | .next t => some (f t)
  | .fault _ => none
  | .refused _ => none

/-- The fault a step stops with. -/
def stop (o : Host.Outcome State Fault Refusal) : Option Fault :=
  match o with
  | .fault r => some r
  | .next _ => none
  | .refused _ => none

/-- A configuration in the operand order of CONFIGURE (R60). -/
def config (pk l0 l1 f o : Byte) (p q n : Half) : Settings := ⟨pk, l0, l1, f, o, p, q, n⟩

/-- A block at reset whose shadow registers hold `c`, with LED bytes and OUT bytes from address 0. -/
def shadowed (c : Settings) (cap size : Nat) (led out : List Byte) : State :=
  { State.powerOn cap size (memWriteBytes [] 0 led) (memWriteBytes [] 0 out) [] with sh := c }

/-- The same block after INIT, where INIT answers. -/
def inited (c : Settings) (cap size : Nat) (led out : List Byte) : State :=
  match exec .init (shadowed c cap size led out) with
  | .next t => t
  | .fault _ => State.reset
  | .refused _ => State.reset

/-- The state with the cursor at a position. -/
def at_ (pos : Nat) (s : State) : State := { s with cursor := BitVec.ofNat 32 pos }

/-- The state with one word issued by the host. -/
def issuing (w : Word) (s : State) : State := { s with host := [.command w] }

/-- W1's configuration. -/
def w1 : Settings := config 0x00 0x03 0x3F 0x01 0x00 10 0 1

/-- W2's configuration. -/
def w2 : Settings := config 0x01 0x01 0x03 0x01 0x00 0 0 1

/-- N1's configuration: a prefix, one LED, a suffix, SINGLE. -/
def n1 : Settings := config 0x00 0x03 0x3F 0x01 0x00 2 3 1

/-- N2's configuration: the same zones in DOUBLE. -/
def n2 : Settings := config 0x01 0x01 0x03 0x01 0x00 2 3 1

/-- The LED record of W1, W2, N1 and N2. -/
def leds : List Byte := [0x55, 0xAA, 0x0F]

/-- The status INIT answers for a configuration. -/
def initAnswer (c : Settings) : Option (Option Word) := after (exec .init (shadowed c 1 40 leds [])) State.resp

/-! ### Well-formedness (R60): each check refuses an ill-formed line -/

theorem test_wellFormed_imm8_too_big : (Source.setpack (.number 0x100)).wellFormed = false := by decide
theorem test_wellFormed_pl0_too_big : (Source.setpl0 (.number 256)).wellFormed = false := by decide
theorem test_wellFormed_pl1_symbol : (Source.setpl1 (.symbol .single)).wellFormed = false := by decide
theorem test_wellFormed_fb0_symbol : (Source.setfb0 (.symbol .lsbFirst)).wellFormed = false := by decide
theorem test_wellFormed_order_symbol : (Source.setord (.symbol .enabled)).wellFormed = false := by decide
theorem test_wellFormed_imm16_too_big :
    (Source.setpre 0x10000).wellFormed = false ∧ (Source.setsuf 0x10000).wellFormed = false ∧
    (Source.setcnt 0x10000).wellFormed = false := by decide
theorem test_wellFormed_configure :
    (Source.configure (.symbol .run1) (.number 1) (.number 3) (.number 0) (.number 0) 0 0 0).wellFormed = false ∧
    (Source.configure (.number 0) (.number 256) (.number 3) (.number 0) (.number 0) 0 0 0).wellFormed = false ∧
    (Source.configure (.number 0) (.number 1) (.symbol .double) (.number 0) (.number 0) 0 0 0).wellFormed = false ∧
    (Source.configure (.number 0) (.number 1) (.number 3) (.number 256) (.number 0) 0 0 0).wellFormed = false ∧
    (Source.configure (.number 0) (.number 1) (.number 3) (.number 0) (.symbol .run7) 0 0 0).wellFormed = false ∧
    (Source.configure (.number 0) (.number 1) (.number 3) (.number 0) (.number 0) 65536 0 0).wellFormed = false ∧
    (Source.configure (.number 0) (.number 1) (.number 3) (.number 0) (.number 0) 0 65536 0).wellFormed = false ∧
    (Source.configure (.number 0) (.number 1) (.number 3) (.number 0) (.number 0) 0 0 65536).wellFormed = false := by
  decide
theorem test_wellFormed_bounds :
    (Source.setpack (.number 0xFF)).wellFormed = true ∧ (Source.setpre 0xFFFF).wellFormed = true ∧
    (Source.setpl1 (.symbol .run6)).wellFormed = true := by decide

/-! ### Decoding: one word per command, its bits written out from R50 and R53 (op, zeros, immediate) -/

theorem test_decode_setpack : decode 0b00010000_00000000_00000000_10000001 = .ok (.setpack 0x81) := by decide
theorem test_decode_setpl0 : decode 0b00010001_00000000_00000000_00000011 = .ok (.setpl0 0x03) := by decide
theorem test_decode_setpl1 : decode 0b00010010_00000000_00000000_00111111 = .ok (.setpl1 0x3F) := by decide
theorem test_decode_setfb0 : decode 0b00010011_00000000_00000000_00000001 = .ok (.setfb0 0x01) := by decide
theorem test_decode_setord : decode 0b00010100_00000000_00000000_00000001 = .ok (.setord 0x01) := by decide
theorem test_decode_setpre : decode 0b00010101_00000000_10000000_00001010 = .ok (.setpre 0x800A) := by decide
theorem test_decode_setsuf : decode 0b00010110_00000000_00000000_00110010 = .ok (.setsuf 50) := by decide
theorem test_decode_setcnt : decode 0b00010111_00000000_00000001_00000000 = .ok (.setcnt 256) := by decide
theorem test_decode_init : decode 0b00100000_00000000_00000000_00000000 = .ok .init := by decide
theorem test_decode_reqlen : decode 0b00110000_00000000_00000000_00000000 = .ok .reqlen := by decide
theorem test_decode_fill : decode 0b00110001_00000000_00000000_00000000 = .ok .fill := by decide
theorem test_decode_restart : decode 0b00110010_00000000_00000000_00000000 = .ok .restart := by decide
theorem test_decode_isfin : decode 0b00110011_00000000_00000000_00000000 = .ok .isfin := by decide
theorem test_decode_next : decode 0b00110100_00000000_00000000_00000000 = .ok .next := by decide

/-- X1 to X6: reserved opcodes. -/
theorem test_decode_reserved :
    [0x00000000, 0x0F000000, 0x18000000, 0x21000000, 0x35000000, 0xFF000000].all
      (fun w => decode w = .error .reservedOpcode) = true := by decide

/-- X7 to X9, X12 to X14: non-zero must-be-zero bits. -/
theorem test_decode_mustBeZero :
    [0x10000100, 0x10800000, 0x15010000, 0x20000001, 0x34000080, 0x31000001].all
      (fun w => decode w = .error .mustBeZero) = true := by decide

/-- R60's example, from text. -/
theorem test_assemble_setpre : assembleText ["SETPRE 10 ; ten".toList] = some [0x1500000A] := by decide +kernel

/-- R60's CONFIGURE and DRAIN, from text: P1's words. -/
theorem test_assemble_configure :
    assembleText ["CONFIGURE SINGLE, RUN2, 0x3F, ENABLED, LSB_FIRST, 10, 0, 1".toList, "".toList, "DRAIN 2".toList] =
      some [0x10000000, 0x11000003, 0x1200003F, 0x13000001, 0x14000000, 0x1500000A, 0x16000000, 0x17000001,
        0x20000000, 0x34000000, 0x34000000] := by decide +kernel

/-- The fetch of the host's questions: the word is what the next step takes. -/
theorem test_withFetchWord :
    decodeTableWord 32 0x15000007 = some (.setpre 7) ∧
    after (step (State.reset.withFetchWord 32 0x15000007)) (fun t => t.sh.prefixLen) = some 7 := by decide

/-! ### SET commands (S1 to S8, S10) -/

theorem test_set_words :
    after (step (issuing 0x10000001 State.reset)) (fun t => t.sh.packing) = some 0x01 ∧
    after (step (issuing 0x11000003 State.reset)) (fun t => t.sh.pl0) = some 0x03 ∧
    after (step (issuing 0x1200003F State.reset)) (fun t => t.sh.pl1) = some 0x3F ∧
    after (step (issuing 0x13000001 State.reset)) (fun t => t.sh.fb0) = some 0x01 ∧
    after (step (issuing 0x14000001 State.reset)) (fun t => t.sh.order) = some 0x01 ∧
    after (step (issuing 0x1500000A State.reset)) (fun t => t.sh.prefixLen) = some 10 ∧
    after (step (issuing 0x16000032 State.reset)) (fun t => t.sh.suffixLen) = some 50 ∧
    after (step (issuing 0x17000001 State.reset)) (fun t => t.sh.count) = some 1 := by decide

/-- S10: a SET after a successful INIT changes the shadow only. -/
theorem test_set_after_init :
    after (exec (.setpre 5) (inited w1 1 40 leds [])) (fun t => (t.sh.prefixLen, t.cfg, t.valid)) =
      some (5, w1, true) := by decide

/-! ### INIT -/

/-- V1, V7, V10, V11: accepted configurations. -/
theorem test_init_accepts : ∀ c ∈ [w1, config 0x00 0x01 0x7F 0x01 0x01 0 0 0, config 0x01 0x01 0x07 0x01 0x01 0 0 0,
    config 0x01 0x03 0x07 0x00 0x01 0 0 0], initAnswer c = some (some 0) := by decide

/-- V2 to V6, V8, V9, V12 to V17: rejected configurations with their codes. -/
theorem test_init_rejects : ∀ p ∈ [(config 0x00 0x00 0x00 0x00 0x00 0 0 0, 2#32), (config 0x00 0x00 0x03 0x00 0x00 0 0 0, 2),
    (config 0x00 0x05 0x07 0x00 0x00 0 0 0, 2), (config 0x00 0x01 0x80 0x00 0x00 0 0 0, 3),
    (config 0x00 0x01 0xFF 0x00 0x00 0 0 0, 3), (config 0x00 0x7F 0x7F 0x00 0x00 0 0 0, 6),
    (config 0x00 0x3F 0x03 0x00 0x00 0 0 0, 6), (config 0x01 0x01 0x0F 0x00 0x00 0 0 0, 7),
    (config 0x01 0x01 0x0F 0x01 0x00 0 0 0, 7), (config 0x01 0x1F 0x0F 0x00 0x00 0 0 0, 6),
    (config 0x02 0x00 0x00 0x02 0x02 0 0 0, 1), (config 0x00 0x03 0x3F 0x02 0x02 0 0 0, 4),
    (config 0x01 0xFF 0xFF 0xFF 0xFF 0 0 0, 2), (config 0x00 0x03 0x3F 0x01 0xFF 0 0 0, 5)],
    initAnswer p.1 = some (some p.2) := by decide

/-- T1 to T10: the templates. -/
theorem test_templates : ∀ p ∈ [(config 0x00 0x03 0x3F 0x01 0x00 0 0 0, (0x06#8, 0x7E#8)),
    (config 0x00 0x03 0x1F 0x00 0x01 0 0 0, (0xC0, 0xF8)), (config 0x00 0x01 0x07 0x00 0x01 0 0 0, (0x80, 0xE0)),
    (config 0x00 0x01 0x07 0x00 0x00 0 0 0, (0x01, 0x07)), (config 0x00 0x01 0x7F 0x01 0x01 0 0 0, (0x40, 0x7F)),
    (config 0x00 0x3F 0x7F 0x01 0x00 0 0 0, (0x7E, 0xFE)), (config 0x01 0x01 0x03 0x01 0x00 0 0 0, (0x02, 0x06)),
    (config 0x01 0x01 0x03 0x01 0x01 0 0 0, (0x04, 0x06)), (config 0x01 0x01 0x07 0x00 0x01 0 0 0, (0x08, 0x0E)),
    (config 0x01 0x03 0x07 0x01 0x01 0 0 0, (0x06, 0x07))],
    (fun s => (s.pulse0, s.pulse1)) (inited p.1 1 40 leds []) = p.2 := by decide

/-! ### REQLEN (Q1, Q2, Q6, Q8), RESTART (N4), ISFIN (N1, N3) -/

theorem test_reqlen : ∀ p ∈ [(config 0x00 0 0 0 0 10 0 1, 34#32), (config 0x01 0 0 0 0 10 0 1, 22),
    (config 0xFF 0 0 0 0 0 0 1, 12), (config 0x00 0 0 0 0 65535 65535 65535, 1703910)],
    after (exec .reqlen (shadowed p.1 0 0 [] [])) State.resp = some (some p.2) := by decide

theorem test_restart_after_reset :
    after (exec .restart State.reset) (fun t => (t.cursor, t.resp, t.fault)) = some (0, some 0, none) := by decide

theorem test_isfin :
    after (exec .isfin (at_ 28 (inited n1 1 40 leds []))) State.resp = some (some 0) ∧
    after (exec .isfin (at_ 29 (inited n1 1 40 leds []))) State.resp = some (some 1) := by decide

/-! ### FILL (F1 to F6) -/

/-- F1, F7: W1's 34 bytes, the rest of OUT as it was. -/
theorem test_fill_w1 :
    after (exec .fill (inited w1 1 40 leds (List.replicate 40 0xEE))) (fun t => t.out.map Prod.snd) =
      some [0, 0, 0, 0, 0, 0, 0, 0, 0, 0, 0x7E, 0x06, 0x7E, 0x06, 0x7E, 0x06, 0x7E, 0x06, 0x06, 0x7E, 0x06, 0x7E, 0x06,
        0x7E, 0x06, 0x7E, 0x06, 0x06, 0x06, 0x06, 0x7E, 0x7E, 0x7E, 0x7E, 0xEE, 0xEE, 0xEE, 0xEE, 0xEE, 0xEE] := by
  decide +kernel

/-- F2 to F5: the faults and their order. -/
theorem test_fill_faults :
    after (exec .fill (inited w1 1 33 leds [])) State.fault = some (some (.bufferTooSmall, 0x31000000)) ∧
    after (exec .fill (inited w1 0 34 [] [])) State.fault = some (some (.ledRange, 0x31000000)) ∧
    after (exec .fill (inited w1 0 33 [] [])) State.fault = some (some (.bufferTooSmall, 0x31000000)) ∧
    after (exec .fill State.reset) State.fault = some (some (.unconfigured, 0x31000000)) := by decide

/-! ### NEXT (W2, N2, N5) -/

/-- N2: the zones of a DOUBLE stream, one NEXT each. -/
theorem test_next_zones : ∀ p ∈ [(0, 0x00#32, 1#32), (1, 0x00, 2), (2, 0x26, 4), (10, 0x62, 12), (18, 0x22, 20),
    (22, 0x66, 24), (24, 0x66, 26), (26, 0x00, 27), (28, 0x00, 29), (29, 0x00, 29)],
    after (exec .next (at_ p.1 (inited n2 1 0 leds []))) (fun t => (t.resp, t.cursor)) = some (some p.2.1, p.2.2) := by
  decide +kernel

/-- N1, N5: a SINGLE data step, and one past the LED memory. -/
theorem test_next_single_and_range :
    after (exec .next (at_ 3 (inited n1 1 0 leds []))) (fun t => (t.resp, t.cursor)) = some (some 0x06, 4) ∧
    after (exec .next (at_ 25 (inited (config 0x00 0x01 0x03 0x00 0x00 1 0 2) 1 0 leds []))) State.fault =
      some (some (.ledRange, 0x34000000)) := by decide +kernel

/-- E7, E10: the pair bytes of both bit orders. -/
theorem test_pairs :
    [(false, false), (false, true), (true, false), (true, true)].map (fun p => enc2 (inited w2 1 0 [] []) p.1 p.2) =
      [0x22, 0x62, 0x26, 0x66] ∧
    [(false, false), (false, true), (true, false), (true, true)].map
      (fun p => enc2 (inited (config 0x01 0x01 0x03 0x01 0x01 0 0 1) 1 0 [] []) p.1 p.2) =
      [0x44, 0x46, 0x64, 0x66] := by decide

/-! ### Faults and the host (P5a, P5d, X14, R95, R108) -/

theorem test_fault_recorded :
    after (step (issuing 0x34000000 State.reset)) State.fault = some (some (.unconfigured, 0x34000000)) ∧
    after (step (issuing 0x10000100 State.reset)) State.fault = some (some (.illegalCommand, 0x10000100)) ∧
    after (step (issuing 0x31000001 State.reset)) State.fault = some (some (.illegalCommand, 0x31000001)) := by decide

theorem test_halted :
    stop (step (issuing 0x20000000 (State.reset.recordFault .ledRange 0x34000000))) =
      some (.halted .ledRange 0x34000000) := by decide

theorem test_reset_sets_registers :
    after (step { inited w1 1 40 leds [0xEE] with host := [.reset], fault := some (.ledRange, 0x34000000) })
      (fun t => (t.sh, t.valid, t.fault)) = some (Settings.reset, false, none) := by decide

theorem test_reset_keeps_memories :
    after (step { inited w1 1 40 leds [0xEE] with host := [.reset] })
      (fun t => (t.led.map Prod.snd, t.out.map Prod.snd)) = some ([0x55, 0xAA, 0x0F], [0xEE]) := by decide

/-- P4: the host's write is what the next NEXT encodes. -/
theorem test_live_led :
    after (exec .next (at_ 5 { inited (config 0x00 0x01 0x07 0x00 0x00 1 0 1) 1 0 [] [] with
      led := memWrite (memWriteBytes [] 0 [0x00, 0xC0, 0x00]) 1 0x3F })) State.resp = some (some 0x07) := by
  decide +kernel

/-! ### Witnesses: states and operands that meet the hypotheses of the obligations -/

/-- W1's block: configured, SINGLE, cursor 0, its LED written, OUT large enough. -/
def single : State := inited w1 1 40 leds []

/-- N2's block: configured, DOUBLE, a prefix and a suffix. -/
def double : State := inited n2 1 40 leds []

theorem witness_EncodeInvertsDecode : decode 0x34000000 = .ok .next := by decide

theorem witness_WordsDecodeByTheirFields :
    (issuing 0x35000000 State.reset).fault = none ∧ (issuing 0x35000000 State.reset).host = .command 0x35000000 :: [] ∧
    ∀ i, decode 0x35000000 ≠ .ok i := by
  refine ⟨rfl, rfl, fun i => ?_⟩
  rw [show decode 0x35000000 = .error .reservedOpcode by decide]
  exact nofun

/-- The ends of every range of R55. -/
theorem witness_ReservedEncodingsAreIllegal :
    State.reset.fault = none ∧
    (opField 0x00000000).toNat ≤ 0x0F ∧ (opField 0x0F000000).toNat ≤ 0x0F ∧
    (0x18 ≤ (opField 0x18000000).toNat ∧ (opField 0x1F000000).toNat ≤ 0x1F) ∧
    (0x21 ≤ (opField 0x21000000).toNat ∧ (opField 0x2F000000).toNat ≤ 0x2F) ∧
    0x35 ≤ (opField 0x35000000).toNat ∧ 0x35 ≤ (opField 0xFF000000).toNat ∧
    (0x10 ≤ (opField 0x10000100).toNat ∧ (0x10000100 : Word).extractLsb' 8 16 ≠ 0) ∧
    ((opField 0x14800000).toNat ≤ 0x14 ∧ (0x14800000 : Word).extractLsb' 8 16 ≠ 0) ∧
    (0x15 ≤ (opField 0x15010000).toNat ∧ (0x15010000 : Word).extractLsb' 16 8 ≠ 0) ∧
    ((opField 0x17800000).toNat ≤ 0x17 ∧ (0x17800000 : Word).extractLsb' 16 8 ≠ 0) ∧
    ((opField 0x20000001).toNat = 0x20 ∧ (0x20000001 : Word).extractLsb' 0 24 ≠ 0) ∧
    (0x30 ≤ (opField 0x30800000).toNat ∧ (0x30800000 : Word).extractLsb' 0 24 ≠ 0) ∧
    (shadowed (config 0x02 0 0 0 0 0 0 0) 0 0 [] []).sh.packing ∉ [0x00, 0x01] ∧
    (shadowed (config 0 0x05 0 0 0 0 0 0) 0 0 [] []).sh.pl0 ∉ [0x01, 0x03, 0x07, 0x0F, 0x1F, 0x3F, 0x7F] ∧
    (shadowed (config 0 0x01 0xFF 0 0 0 0 0) 0 0 [] []).sh.pl1 ∉ [0x01, 0x03, 0x07, 0x0F, 0x1F, 0x3F, 0x7F] ∧
    (shadowed (config 0 0x01 0x03 2 0 0 0 0) 0 0 [] []).sh.fb0 ∉ [0x00, 0x01] ∧
    (shadowed (config 0 0x01 0x03 0 2 0 0 0) 0 0 [] []).sh.order ∉ [0x00, 0x01] := by decide

theorem witness_AssemblerChecksAndPlacesImmediates :
    assemble (.setpack (.symbol .single)) = some [0x10000000] ∧ assemble (.setpl0 (.symbol .run2)) = some [0x11000003] ∧
    assemble (.setpl1 (.number 0x3F)) = some [0x1200003F] ∧ assemble (.setfb0 (.number 0xFF)) = some [0x130000FF] ∧
    assemble (.setord (.symbol .msbFirst)) = some [0x14000001] ∧ assemble (.setpre 0xFFFF) = some [0x1500FFFF] ∧
    assemble (.setsuf 0) = some [0x16000000] ∧ assemble (.setcnt 1) = some [0x17000001] := by decide +kernel

theorem witness_SetWordsOfFormatC8 :
    State.reset.fault = none ∧
    (opField 0x10000100 = 0x10 ∧ (0x10000100 : Word).extractLsb' 8 16 ≠ 0) ∧
    ([(0x100000FF, 0x10), (0x11000003, 0x11), (0x1200003F, 0x12), (0x13000000, 0x13), (0x14000001, 0x14)].all
      (fun p => opField p.1 = p.2 ∧ p.1.extractLsb' 8 16 = 0) = true) ∧
    (single.sh.packing ∈ [0x00, 0x01] ∧ single.sh.pl0 ∈ [0x01, 0x03, 0x07, 0x0F, 0x1F, 0x3F, 0x7F] ∧
      single.sh.pl1 ∈ [0x01, 0x03, 0x07, 0x0F, 0x1F, 0x3F, 0x7F] ∧ single.sh.fb0 ∈ [0x00, 0x01]) ∧
    (2 : Byte) ∉ [0x00, 0x01] ∧ (0x05 : Byte) ∉ [0x01, 0x03, 0x07, 0x0F, 0x1F, 0x3F, 0x7F] := by decide

theorem witness_SetWordsOfFormatC16 :
    State.reset.fault = none ∧
    (opField 0x15010000 = 0x15 ∧ (0x15010000 : Word).extractLsb' 16 8 ≠ 0) ∧
    ([(0x1500FFFF, 0x15), (0x16000032, 0x16), (0x17000000, 0x17)].all
      (fun p => opField p.1 = p.2 ∧ p.1.extractLsb' 16 8 = 0) = true) := by decide

theorem witness_InitLatchesOrRejects :
    validate single.sh = .ok ∧ validate State.reset.sh ≠ .ok ∧ State.reset.fault = none ∧
    opField 0x20000001 = 0x20 ∧ (0x20000001 : Word).extractLsb' 0 24 ≠ 0 := by decide

theorem witness_InitIsPureInTheShadows : single.sh = (at_ 20 single).sh ∧ single ≠ at_ 20 single ∧
    after (exec .init single) State.resp = some (some 0) := by decide

/-- Both packings, both bit orders, both zero-prefix values; the longest runs of each packing. -/
theorem witness_TemplatesFollowTheTables : ∀ c ∈ [config 0 0x01 0x7F 0 0 0 0 1, config 0 0x3F 0x7F 0 1 0 0 1,
    config 0 0x01 0x03 1 0 0 0 1, config 0 0x01 0x7F 1 1 0 0 1, config 1 0x01 0x07 0 0 0 0 1,
    config 1 0x03 0x07 0 1 0 0 1, config 1 0x01 0x03 1 0 0 0 1, config 1 0x01 0x07 1 1 0 0 1],
    after (exec .init (shadowed c 0 0 [] [])) State.valid = some true ∧ (run c.pl0).isSome ∧ (run c.pl1).isSome := by
  decide

theorem witness_PulsesSurviveTheWireOrder_single :
    (Inv single ∧ single.valid = true ∧ run single.cfg.pl0 = some 2 ∧ run single.cfg.pl1 = some 6 ∧
      single.cfg.packing = 0x00) := by decide

theorem witness_PulsesSurviveTheWireOrder_double :
    (Inv double ∧ double.valid = true ∧ run double.cfg.pl0 = some 1 ∧ run double.cfg.pl1 = some 2 ∧
      double.cfg.packing = 0x01) := by decide

theorem witness_DoubleTemplatesFitANibble :
    Inv double ∧ double.valid = true ∧ double.cfg.packing = 0x01 := by decide

/-- A prefix, an LED and a suffix, in both packings; the last channel and bit of the LED. -/
theorem witness_StreamLayout :
    (0 < n1.prefixLen.toNat ∧ 0 < n1.suffixLen.toNat ∧ 0 < n1.count.toNat ∧ 2 < 3 ∧ 7 < 8 ∧ n1.packing = 0x00) ∧
    (0 < n2.prefixLen.toNat ∧ 0 < n2.suffixLen.toNat ∧ 0 < n2.count.toNat ∧ 3 < 4 ∧ n2.packing ≠ 0x00) := by decide

theorem witness_ChannelBytesComeFromTheRecord :
    memRead single.led (3 * 0 + 1) = some 0xAA ∧ memRead single.led (3 * 0) = some 0x55 ∧
    memRead single.led (3 * 0 + 2) = some 0x0F := by decide

theorem witness_ReqlenAnswersTheLength :
    State.reset.fault = none ∧ opField 0x30000001 = 0x30 ∧ (0x30000001 : Word).extractLsb' 0 24 ≠ 0 := by decide

theorem witness_ReqlenAgreesWithTheStream :
    (after (exec .init (shadowed w1 1 40 leds [])) State.valid = some true) ∧ single.sh = single.cfg ∧ ¬ IsSet .fill ∧
    (after (exec .fill single) State.valid).isSome := by
  refine ⟨by decide, by decide, id, by decide⟩

/-- A stream that fills OUT to the last byte, and the empty stream in an empty OUT. -/
theorem witness_FillWritesTheStreamOrFaults :
    (∀ s ∈ [inited w1 1 34 leds [], inited (config 0 1 3 0 0 0 0 0) 0 0 [] []], s.valid = true ∧
      s.cfg.prefixLen.toNat + s.cfg.count.toNat * (if s.cfg.packing = 0x00 then 24 else 12) + s.cfg.suffixLen.toNat
        ≤ s.outSize ∧ s.cfg.count.toNat ≤ s.ledCap) := by decide

/-- OUT one byte short; one LED too many. -/
theorem witness_FillWritesTheStreamOrFaults_faults :
    State.reset.valid = false ∧
    ((inited w1 1 33 leds []).valid = true ∧
      (inited w1 1 33 leds []).outSize < (stream (inited w1 1 33 leds [])).length) ∧
    ((inited w1 0 34 leds []).valid = true ∧ (stream (inited w1 0 34 leds [])).length ≤ 34 ∧
      (inited w1 0 34 leds []).outSize = 34 ∧ (inited w1 0 34 leds []).ledCap < w1.count.toNat) ∧
    State.reset.fault = none ∧ opField 0x31000001 = 0x31 ∧ (0x31000001 : Word).extractLsb' 0 24 ≠ 0 := by
  decide +kernel

theorem witness_RestartZeroesTheCursor :
    State.reset.fault = none ∧ opField 0x32000001 = 0x32 ∧ (0x32000001 : Word).extractLsb' 0 24 ≠ 0 ∧
    single.valid = true ∧ 0 < virtLen single.cfg ∧ (after (exec .restart single) State.cursor).isSome := by decide

theorem witness_IsfinReportsTheEnd :
    single.valid = true ∧ State.reset.valid = false ∧ State.reset.fault = none ∧ opField 0x33000001 = 0x33 ∧
    (0x33000001 : Word).extractLsb' 0 24 ≠ 0 := by decide

/-- The last prefix byte, the first and last data units, the first and last suffix bytes, the end; both packings; an LED
past the memory. -/
theorem witness_NextAnswersByZone :
    (at_ 1 double).valid = true ∧ (at_ 1 double).cursor.toNat < double.cfg.prefixLen.toNat ∧
    (∀ c ∈ [26, 28], double.cfg.prefixLen.toNat + 24 * double.cfg.count.toNat ≤ (at_ c double).cursor.toNat ∧
      (at_ c double).cursor.toNat < virtLen double.cfg) ∧
    virtLen double.cfg ≤ (at_ 29 double).cursor.toNat ∧
    (∀ off ∈ [0, 22], (at_ (2 + off) double).cursor.toNat = double.cfg.prefixLen.toNat + off ∧
      off < 24 * double.cfg.count.toNat ∧ off / 24 < double.ledCap ∧ double.cfg.packing ≠ 0x00 ∧ off % 2 = 0) ∧
    (∀ off ∈ [0, 23], (at_ (10 + off) single).cursor.toNat = single.cfg.prefixLen.toNat + off ∧
      off < 24 * single.cfg.count.toNat ∧ off / 24 < single.ledCap ∧ single.cfg.packing = 0x00) ∧
    (inited w1 0 40 [] []).ledCap ≤ 0 / 24 ∧ State.reset.valid = false ∧
    opField 0x34000080 = 0x34 ∧ (0x34000080 : Word).extractLsb' 0 24 ≠ 0 := by decide

/-- The first and the last odd offset of the LED. -/
theorem witness_OddDoubleStepIsRefused : double.valid = true ∧ double.cfg.packing ≠ 0x00 ∧ Inv double ∧
    ([1, 23].all (fun off => (at_ (2 + off) double).cursor.toNat = double.cfg.prefixLen.toNat + off ∧
      off < 24 * double.cfg.count.toNat ∧ off / 24 < double.ledCap ∧ off % 2 = 1) = true) := by decide

theorem witness_NextAnswersTheStreamByte : ∀ s ∈ [at_ 0 double, at_ 24 double, at_ 28 double, at_ 33 single],
    Inv s ∧ s.valid = true ∧ s.cursor.toNat < virtLen s.cfg ∧ s.cfg.count.toNat ≤ s.ledCap := by decide

theorem witness_DrainEqualsFill : ∀ s ∈ [single, double],
    Inv s ∧ s.valid = true ∧ s.cursor = 0 ∧ s.cfg.count.toNat ≤ s.ledCap ∧ physLen s.cfg ≤ s.outSize ∧
    0 < physLen s.cfg := by decide

theorem witness_ExtraNextsAnswerZero : ∀ s ∈ [single, double],
    Inv s ∧ s.valid = true ∧ s.cursor = 0 ∧ s.cfg.count.toNat ≤ s.ledCap := by decide

theorem witness_DoneZoneIsTerminal :
    ((at_ 34 single).valid = true ∧ virtLen single.cfg ≤ (at_ 34 single).cursor.toNat) ∧
    (at_ 33 single).cursor.toNat < virtLen single.cfg := by decide

theorem witness_RestartReplaysTheStream :
    Inv (at_ 34 single) ∧ (at_ 34 single).valid = true ∧ single.cfg.count.toNat ≤ single.ledCap ∧
    0 < virtLen single.cfg := by decide

theorem witness_SetDoesNotDisturbTheStream :
    IsSet (.setpre 5) ∧ exec (.setpre 5) single = .next ((single.setSh { single.sh with prefixLen := 5 }).respond 0) :=
  ⟨trivial, rfl⟩

theorem witness_StepRunsTheDecodedCommand :
    (issuing 0x34000000 single).fault = none ∧ (issuing 0x34000000 single).host = .command 0x34000000 :: [] ∧
    decode 0x34000000 = .ok .next := by decide

theorem witness_FaultedBlockTakesNoCommand :
    (issuing 0x20000000 (State.reset.recordFault .ledRange 0x34000000)).fault = some (.ledRange, 0x34000000) ∧
    (issuing 0x20000000 (State.reset.recordFault .ledRange 0x34000000)).host = .command 0x20000000 :: [] := by decide

theorem witness_FaultEndsTheRun :
    ((issuing 0x34000000 State.reset).fault = none ∧
      (issuing 0x34000000 State.reset).host = .command 0x34000000 :: [] ∧
      after (step (issuing 0x34000000 State.reset)) (fun t => t.fault.isSome) = some true) ∧
    (issuing 0x20000000 (State.reset.recordFault .ledRange 0x34000000)).fault ≠ none ∧
    (after (exec .init (State.reset.recordFault .ledRange 0x34000000)) State.fault).isSome ∧
    after (step { State.reset.recordFault .ledRange 0x34000000 with host := [.writeLed 0 1] }) State.fault =
      some (some (.ledRange, 0x34000000)) := by decide

theorem witness_FaultsHaveTheListedCauses :
    (issuing 0x34000000 State.reset).fault = none ∧
    (issuing 0x34000000 State.reset).host = .command 0x34000000 :: [] := by decide

theorem witness_EachCommandWritesOnlyItsState :
    (after (exec .next single) State.cursor = some 1) ∧ (after (exec .init single) State.valid = some true) ∧
    (after (exec (.setpl0 7) single) (fun t => t.sh.pl0) = some 7) := by decide

theorem witness_CursorOnlyGrows :
    Instr.next ≠ .init ∧ Instr.next ≠ .restart ∧ after (exec .next (at_ 24 double)) State.cursor = some 26 ∧
    Inv (at_ 24 double) ∧ double.valid = true ∧ virtLen double.cfg ≤ (at_ 29 double).cursor.toNat := by decide +kernel

theorem witness_GoodStatesRefuseNoCommand : ∀ s ∈ [State.reset, single, double], Inv s := by decide

theorem witness_InvalidStateHidesTheLatch : State.reset.valid = false := by decide

theorem witness_InvariantKeptByEveryStep :
    Inv (issuing 0x34000000 single) ∧ after (step (issuing 0x34000000 single)) State.cursor = some 1 := by decide

theorem witness_ResetSetsEveryRegister :
    ({ single with host := [.reset] } : State).host = .reset :: [] := by decide

theorem witness_WaitingBlockHoldsItsState : State.reset.host = [] := by decide

/-- The first and the last address of each memory. -/
theorem witness_HostWritesOneByte :
    (({ single with host := [.writeLed 2 7] } : State).host = .writeLed 2 7 :: [] ∧ 2 < 3 * single.ledCap ∧
      3 * single.ledCap = 3 ∧ 0 < 3 * single.ledCap) ∧
    (({ single with host := [.writeOut 39 7] } : State).host = .writeOut 39 7 :: [] ∧ 39 < single.outSize ∧
      single.outSize = 40 ∧ 0 < single.outSize) := by decide

/-- The last bit of W1's LED in SINGLE packing. -/
theorem witness_NextSeesTheLastLedWrite_single :
    let s : State := { at_ 33 single with host := [.writeLed (3 * (23 / 24) + channelOffset (channelOf (23 % 24 / 8))) 1] }
    s.valid = true ∧ s.cfg.packing = 0x00 ∧ s.cursor.toNat = s.cfg.prefixLen.toNat + 23 ∧
    23 < 24 * s.cfg.count.toNat ∧ 23 / 24 < s.ledCap ∧ (after (step s) State.valid).isSome := by decide

/-- The last pair of N2's LED in DOUBLE packing. -/
theorem witness_NextSeesTheLastLedWrite_double :
    let s : State := { at_ 24 double with host := [.writeLed (3 * (22 / 24) + channelOffset (channelOf (22 % 24 / 8))) 1] }
    s.valid = true ∧ s.cfg.packing ≠ 0x00 ∧ 22 % 2 = 0 ∧ s.cursor.toNat = s.cfg.prefixLen.toNat + 22 ∧
    22 < 24 * s.cfg.count.toNat ∧ 22 / 24 < s.ledCap ∧ (after (step s) State.valid).isSome := by decide

/-- The address just past each memory. -/
theorem witness_HostWriteOutsideMemoryStops :
    (({ single with host := [.writeLed 3 7] } : State).host = .writeLed 3 7 :: [] ∧ 3 * single.ledCap ≤ 3) ∧
    (({ single with host := [.writeOut 40 7] } : State).host = .writeOut 40 7 :: [] ∧ single.outSize ≤ 40) := by decide

end Sys2Proof.Tests
end

section
/-!
PROOF. What the step that takes a command word answers (spec/20_memory.md R43, spec/60_exceptions.md R98).
-/

namespace Sys2Proof.Machine

/-- The port hands the block the word at the front of the host's actions (R43). -/
theorem step_of_host_command {s : State} {w : Word} {rest : List HostAction} (hh : s.host = .command w :: rest) :
    step s = takeCommand w (s.setHost rest) := by
  simp only [step, performNext, hh, perform]

/-- An unfaulted block runs the command a word decodes to (R54, R98). -/
theorem takeCommand_of_decode {s : State} {w : Word} {i : Instr} (hf : s.fault = none) (hd : decode w = .ok i) :
    takeCommand w s = exec i s := by
  simp only [takeCommand, hf, hd]

/-- Settles O33: the port takes the word, and the unfaulted block runs what it decodes to. -/
theorem stepRunsTheDecodedCommand : Obligations.StepRunsTheDecodedCommand := by
  intro s w rest i hf hh hd
  calc step s
    _ = takeCommand w (s.setHost rest) := step_of_host_command hh
    _ = exec i (s.setHost rest) := takeCommand_of_decode hf hd

end Sys2Proof.Machine
end

section
/-!
PROOF. How many bytes the stream has (spec/41_encoder.md R80, R81).
-/

namespace Sys2Proof.Machine

theorem encodeChannel_length (s : State) (x : Byte) :
    (encodeChannel s x).length = if s.cfg.packing = 0x00 then 8 else 4 := by
  unfold encodeChannel
  split <;> rfl

theorem encodeLed_length (s : State) (i : Nat) : (encodeLed s i).length = bytesPerLed s.cfg.packing := by
  simp only [encodeLed, List.length_append, encodeChannel_length, bytesPerLed]
  split <;> rfl

/-- The stream has the physical length REQLEN's formula gives for the latched configuration (R80, R81). -/
theorem stream_length (s : State) : (stream s).length = physLen s.cfg := by
  simp [stream, guardBytes, physLen, List.length_flatMap, encodeLed_length, Nat.add_assoc]

end Sys2Proof.Machine
end

section
/-!
PROOF. How a command moves the cursor (spec/10_state.md R21, R22).
-/

namespace Sys2Proof.Machine

/-- Before the end of the stream a step of at most 2 does not wrap the cursor (R22). -/
theorem cursor_add_toNat {c : Settings} {pos d : Word} (hpos : pos.toNat < virtLen c) (hd : d.toNat ≤ 2) :
    (pos + d).toNat = pos.toNat + d.toNat := by
  have hV := virtLen_le c
  exact BitVec.toNat_add_of_lt (by omega)

/-- A cursor in the Data zone is before the end of the stream (R85). -/
theorem dataZone_lt_virtLen {c : Settings} {pos : Nat} (h : zone c pos = .dataZone) : pos < virtLen c := by
  have hz := dataZone_bounds h
  unfold virtLen
  omega

/-- Except by INIT and RESTART, the cursor stays, or moves by 1 (any place before the end of the stream but the data of
a packing that is not SINGLE), or moves by 2 from an even place of the data (R22, R86). -/
theorem Effect.cursor_cases {i : Instr} {s t : State} (h : Effect i s t) (hi : i ≠ .init) (hr : i ≠ .restart) :
    t.cursor = s.cursor ∨
    (t.cursor.toNat = s.cursor.toNat + 1 ∧ s.cursor.toNat < virtLen s.cfg ∧
      (zone s.cfg s.cursor.toNat = .dataZone → s.cfg.packing = 0x00)) ∨
    (t.cursor.toNat = s.cursor.toNat + 2 ∧ zone s.cfg s.cursor.toNat = .dataZone ∧
      (s.cursor.toNat - s.cfg.prefixLen.toNat) % 2 = 0) := by
  cases h with
  | latched | rejected => exact absurd rfl hi
  | restarted => exact absurd rfl hr
  | guarded _ hz =>
    have hlt : s.cursor.toNat < virtLen s.cfg := by
      rcases hz with hz | hz
      · have := prefixZone_bounds hz
        unfold virtLen
        omega
      · exact (suffixZone_bounds hz).2
    refine .inr (.inl ⟨cursor_add_toNat hlt (by decide), hlt, fun hd => ?_⟩)
    rcases hz with hz | hz <;> cases hz.symm.trans hd
  | single _ hz hp _ _ =>
    have hlt := dataZone_lt_virtLen hz
    exact .inr (.inl ⟨cursor_add_toNat hlt (by decide), hlt, fun _ => hp⟩)
  | double _ hz _ _ hb _ =>
    exact .inr (.inr ⟨cursor_add_toNat (dataZone_lt_virtLen hz) (by decide), hz, by omega⟩)
  | _ => exact .inl rfl

/-- Settles O38: the cursor stays, or moves by 1 before the end, or by 2 from an even place of the data, whose length
is even. -/
theorem cursorOnlyGrows : Obligations.CursorOnlyGrows := by
  intro i s t h hi hr
  have hV := virtLen_le s.cfg
  obtain hc | ⟨hc, hlt, -⟩ | ⟨hc, hz, heven⟩ := (exec_cases h).cursor_cases hi hr
  · rw [hc]
    refine ⟨by omega, by omega, fun _ => rfl, fun hinv hv => ?_, by omega⟩
    obtain ⟨-, -, hle, -⟩ := hinv.2 hv
    exact hle
  · exact ⟨by omega, by omega, fun _ => by omega, fun _ _ => by omega, by omega⟩
  · have hb := dataZone_bounds hz
    have hle : s.cursor.toNat + 2 ≤ virtLen s.cfg := by
      unfold virtLen
      omega
    exact ⟨by omega, by omega, fun _ => by omega, fun _ _ => by omega, by omega⟩

end Sys2Proof.Machine
end

section
/-!
PROOF. The frame of the commands (spec/10_state.md R16 to R21, spec/20_memory.md R29, R31): per register and memory, the
effects that write it.
-/

namespace Sys2Proof.Machine

section
variable {i : Instr} {s t : State}

theorem Effect.sh_frame (h : Effect i s t) : IsSet i ∨ t.sh = s.sh := by
  cases h with
  | set hi _ => exact .inl hi
  | _ => exact .inr rfl

theorem Effect.latched_frame (h : Effect i s t) :
    i = .init ∨ (t.cfg = s.cfg ∧ t.pulse0 = s.pulse0 ∧ t.pulse1 = s.pulse1 ∧ t.valid = s.valid) := by
  cases h with
  | latched | rejected => exact .inl rfl
  | _ => exact .inr ⟨rfl, rfl, rfl, rfl⟩

/-- Only a successful INIT replaces the latched configuration and the templates (R75). -/
theorem Effect.latched_frame_of_invalid (h : Effect i s t) :
    t.valid = true ∨ (t.cfg = s.cfg ∧ t.pulse0 = s.pulse0 ∧ t.pulse1 = s.pulse1) := by
  cases h with
  | latched => exact .inl rfl
  | _ => exact .inr ⟨rfl, rfl, rfl⟩

theorem Effect.cursor_frame (h : Effect i s t) : i = .init ∨ i = .restart ∨ i = .next ∨ t.cursor = s.cursor := by
  cases h with
  | latched => exact .inl rfl
  | restarted => exact .inr (.inl rfl)
  | guarded | single | double => exact .inr (.inr (.inl rfl))
  | _ => exact .inr (.inr (.inr rfl))

theorem Effect.fault_frame (h : Effect i s t) : i = .fill ∨ i = .isfin ∨ i = .next ∨ t.fault = s.fault := by
  cases h with
  | unconfigured hi _ => exact hi.imp id (Or.imp id .inl)
  | tooSmall | fillRange => exact .inl rfl
  | nextRange => exact .inr (.inr (.inl rfl))
  | _ => exact .inr (.inr (.inr rfl))

theorem Effect.out_frame (h : Effect i s t) : i = .fill ∨ t.out = s.out := by
  cases h with
  | filled => exact .inl rfl
  | _ => exact .inr rfl

/-- No command writes LED, a size or what the host does next (R29, R10). -/
theorem Effect.host_frame (h : Effect i s t) :
    t.led = s.led ∧ t.ledCap = s.ledCap ∧ t.outSize = s.outSize ∧ t.host = s.host := by
  cases h <;> exact ⟨rfl, rfl, rfl, rfl⟩

end

/-- Settles O37, register by register. -/
theorem eachCommandWritesOnlyItsState : Obligations.EachCommandWritesOnlyItsState := by
  intro i s t h
  have he := exec_cases h
  obtain ⟨hled, hsizes⟩ := he.host_frame
  exact ⟨he.sh_frame, he.latched_frame, he.latched_frame_of_invalid, he.cursor_frame, he.fault_frame,
    he.out_frame.imp id fun e a => by rw [e], fun a => by rw [hled], hsizes⟩

end Sys2Proof.Machine
end

section
/-!
PROOF. The invariant of spec/10_state.md R24 to R26, R29 and R31: it holds at reset and every step keeps it.
-/

namespace Sys2Proof.Machine

/-- FILL's check of R82 keeps the stream inside OUT; no other command writes a memory (R29, R31). -/
theorem Effect.keeps_memoriesOk {i : Instr} {s t : State} (h : Effect i s t) (hm : MemoriesOk s) : MemoriesOk t := by
  cases h with
  | filled _ hl _ =>
    obtain ⟨hled, hout, hledB, houtB⟩ := hm
    exact ⟨hled, memWriteBytes_wf _ 0 hout, hledB, memWriteBytes_below _ 0 houtB (by simpa [stream_length] using hl)⟩
  | _ => exact hm

/-- The start of the stream is a good cursor (R26). -/
theorem cursorOk_zero {s : State} (h : s.cursor = 0) : CursorOk s := by
  simp only [CursorOk, h]
  exact ⟨Nat.zero_le _, fun _ _ _ => by simp⟩

/-- NEXT leads from a good cursor to a good cursor: it enters DOUBLE data at its first place, and there it moves by 2
(R26, R86). -/
theorem Effect.next_keeps_cursorOk {s t : State} (h : Effect .next s t) (hcfg : t.cfg = s.cfg) (hc : CursorOk s) :
    CursorOk t := by
  obtain e | ⟨e, hlt, hsingle⟩ | ⟨e, hz, heven⟩ := h.cursor_cases nofun nofun
  · simpa only [CursorOk, hcfg, e] using hc
  · simp only [CursorOk, hcfg, e]
    refine ⟨hlt, fun hp hge hltData => ?_⟩
    by_cases hpre : s.cursor.toNat < s.cfg.prefixLen.toNat
    · omega
    · have hz : zone s.cfg s.cursor.toNat = .dataZone := by
        rw [zone, if_neg hpre, if_pos (by omega)]
      exact absurd ((hsingle hz).symm.trans hp) (by decide)
  · have hb := dataZone_bounds hz
    simp only [CursorOk, hcfg, e, virtLen]
    exact ⟨by omega, fun _ _ _ => by omega⟩

/-- NEXT writes only the cursor of what `Configured` speaks of (R24 to R26). -/
theorem Effect.next_keeps_configured {s t : State} (h : Effect .next s t) (hc : Configured s) : Configured t := by
  obtain ⟨hok, hcomp, hcur⟩ := hc
  obtain ⟨hcfg, hp0, hp1, -⟩ := h.latched_frame.resolve_left nofun
  rw [Configured, hcfg, hp0, hp1]
  exact ⟨hok, hcomp, h.next_keeps_cursorOk hcfg hcur⟩

/-- What holds while `valid` is 1 (R24 to R26) holds again after every command: a successful INIT establishes it, a
failed one clears `valid`, RESTART and NEXT place the cursor, and no other command touches it. -/
theorem Effect.keeps_configured {i : Instr} {s t : State} (h : Effect i s t) (hs : s.valid = true → Configured s)
    (ht : t.valid = true) : Configured t := by
  have he := h
  cases h with
  | latched hok => exact ⟨hok, rfl, cursorOk_zero rfl⟩
  | rejected => cases ht
  | restarted =>
    obtain ⟨hok, hcomp, -⟩ := hs ht
    exact ⟨hok, hcomp, cursorOk_zero rfl⟩
  | guarded hv | single hv | double hv => exact he.next_keeps_configured (hs hv)
  | _ => exact hs ht

/-- Every command keeps the invariant. -/
theorem exec_keeps_inv {i : Instr} {s t : State} (hs : Inv s) (h : exec i s = .next t) : Inv t :=
  ⟨(exec_cases h).keeps_memoriesOk hs.1, (exec_cases h).keeps_configured hs.2⟩

/-- Taking a command word keeps the invariant, whether it decodes or not. -/
theorem takeCommand_keeps_inv {w : Word} {s t : State} (hs : Inv s) (h : takeCommand w s = .next t) : Inv t := by
  obtain ⟨k, old, -, e⟩ | ⟨-, i, -, e⟩ | ⟨-, -, e⟩ := takeCommand_cases w s
  · cases e.symm.trans h
  · exact exec_keeps_inv hs (e.symm.trans h)
  · cases e.symm.trans h
    exact hs

/-- Settles O41, by what a step can have done. -/
theorem invariantKeptByEveryStep : Obligations.InvariantKeptByEveryStep := by
  intro s t hs h
  have ⟨⟨hled, hout, hledB, houtB⟩, hconf⟩ := hs
  obtain ⟨-, rfl⟩ | ⟨w, rest, -, hw⟩ | ⟨a, v, rest, -, ha, rfl⟩ | ⟨a, v, rest, -, ha, rfl⟩ | ⟨rest, -, rfl⟩ :=
    step_cases h
  · exact hs
  · have hs' : Inv (s.setHost rest) := hs
    exact takeCommand_keeps_inv hs' hw
  · exact ⟨⟨memWrite_wf a v hled, hout, memWrite_below v hledB ha, houtB⟩, hconf⟩
  · exact ⟨⟨hled, memWrite_wf a v hout, hledB, memWrite_below v houtB ha⟩, hconf⟩
  · exact ⟨⟨hled, hout, hledB, houtB⟩, nofun⟩

/-- Settles O42: the reset memories list no byte, and `valid` is 0. -/
theorem invariantHoldsAtReset : Obligations.InvariantHoldsAtReset := by
  obtain ⟨hled, hout⟩ := reset_memories_wf
  exact ⟨⟨hled, hout, nofun, nofun⟩, nofun⟩

end Sys2Proof.Machine
end

section
/-!
PROOF. Templates in DOUBLE packing (spec/40_configuration.md R69 to R72): an accepted run of at most 3 bits, shifted by
at most 1, fits a nibble.
-/

namespace Sys2Proof.Machine

/-- A value with a run length is the run mask of that length (R12, R56). -/
theorem eq_runmask_of_run {v : Byte} {n : Nat} (h : run v = some n) : v = runmask n := by
  have e := List.find?_some (p := fun k => decide (runmask k = v)) h
  exact (of_decide_eq_true e).symm

/-- A run of at most 3 bits is at most 7. -/
theorem runmask_le_seven {n : Nat} (h : n ≤ 3) : (runmask n).toNat ≤ 7 := by
  have hpow : 2 ^ n ≤ 2 ^ 3 := Nat.pow_le_pow_right (by decide) h
  have hmod := Nat.mod_le (2 ^ n - 1) (2 ^ 8)
  rw [runmask, BitVec.toNat_ofNat]
  omega

/-- The two run lengths of a configuration that passes INIT's checks: in order, and in DOUBLE packing at most 3 (R69 to
R71). -/
theorem runs_of_validate_ok {c : Settings} (h : validate c = .ok) :
    ∃ n0 n1, run c.pl0 = some n0 ∧ run c.pl1 = some n1 ∧ n0 < n1 ∧ (c.packing = 0x01 → n1 ≤ doubleMaxRun) := by
  unfold validate at h
  split at h
  · cases h
  · split at h
    · cases h
    · next n0 h0 =>
      split at h
      · cases h
      · next n1 h1 =>
        unfold validateRuns at h
        split_ifs at h with _ _ hord hlong
        exact ⟨n0, n1, h0, h1, Nat.lt_of_not_le hord, fun hp => Nat.le_of_not_lt fun hn => hlong ⟨hp, hn⟩⟩

/-- The high four bits of a reversed nibble are 0 (R12). -/
theorem rev4_lt (v : Byte) : (rev4 v).toNat < 0x10 := by
  have h : ∀ a b c d : Bool, (BitVec.ofBoolListBE [false, false, false, false, a, b, c, d]).toNat < 0x10 := by decide
  exact h _ _ _ _

/-- The first-bit option FB0 shifts a run of at most 3 bits within the nibble (R72). -/
theorem shiftLeft_firstBitShift_lt (c : Settings) {l : Byte} (h : l.toNat ≤ 7) :
    (l <<< firstBitShift c).toNat < 0x10 := by
  unfold firstBitShift
  split <;> simp only [BitVec.toNat_shiftLeft, Nat.shiftLeft_eq] <;> omega

/-- In DOUBLE packing the template of a run of at most 3 bits fits a nibble, in both bit orders (R72). -/
theorem template_lt {c : Settings} {l : Byte} (hp : c.packing = 0x01) (h : l.toNat ≤ 7) :
    (template c l).toNat < 0x10 := by
  unfold template
  split
  · rw [if_neg (by rw [hp]; decide)]
    exact rev4_lt _
  · exact shiftLeft_firstBitShift_lt c h

/-- Settles O16: the invariant compiles the templates from a configuration whose two runs have at most 3 bits. -/
theorem doubleTemplatesFitANibble : Obligations.DoubleTemplatesFitANibble := by
  intro s hs hv
  obtain ⟨hok, hcomp, -⟩ := hs.2 hv
  obtain ⟨n0, n1, h0, h1, hlt, hmax⟩ := runs_of_validate_ok hok
  refine ⟨hcomp, fun hp => ?_⟩
  have hn1 : n1 ≤ 3 := hmax hp
  obtain ⟨e0, e1⟩ := Prod.mk.inj hcomp
  rw [e0, e1]
  refine ⟨template_lt hp ?_, template_lt hp ?_⟩
  · rw [eq_runmask_of_run h0]
    exact runmask_le_seven (by omega)
  · rw [eq_runmask_of_run h1]
    exact runmask_le_seven hn1

end Sys2Proof.Machine
end

section
/-!
PROOF. While `valid` is 0 the latched configuration, the templates and the cursor are invisible (spec/10_state.md R19,
spec/40_configuration.md R75).
-/

namespace Sys2Proof.Machine

/-- The same block with another latched configuration, other templates and another cursor. -/
def State.relatch (c : Settings) (p0 p1 : Byte) (cur : Word) (s : State) : State :=
  { s with cfg := c, pulse0 := p0, pulse1 := p1, cursor := cur }

/-- Both outcomes answer, alike in all but the latched registers, and alike in those too where `valid` is 1. -/
def AnswerAlike (o o' : Host.Outcome State Fault Refusal) : Prop :=
  ∃ t u, o = .next t ∧ o' = .next u ∧ u.resp = t.resp ∧ u.fault = t.fault ∧ u.valid = t.valid ∧ u.sh = t.sh ∧
    u.out = t.out ∧ u.led = t.led ∧ (t.valid = true → u = t)

/-- The same next state from both sides. -/
theorem answerAlike_same (t : State) : AnswerAlike (.next t) (.next t) :=
  ⟨t, t, rfl, rfl, rfl, rfl, rfl, rfl, rfl, rfl, fun _ => rfl⟩

section
variable (c : Settings) (p0 p1 : Byte) (cur : Word)

/-- Next states with `valid` 0 may differ in the latched registers. -/
theorem answerAlike_relatch {t : State} (ht : t.valid = false) :
    AnswerAlike (.next t) (.next (t.relatch c p0 p1 cur)) :=
  ⟨t, t.relatch c p0 p1 cur, rfl, rfl, rfl, rfl, rfl, rfl, rfl, rfl, fun h => absurd (ht.symm.trans h) nofun⟩

/-- INIT reads only the shadow registers, and a successful one overwrites all that differed (R75). -/
theorem execInit_answerAlike (s : State) : AnswerAlike (execInit s) (execInit (s.relatch c p0 p1 cur)) := by
  have hsh : (s.relatch c p0 p1 cur).sh = s.sh := rfl
  unfold execInit
  rw [hsh]
  split
  · exact answerAlike_same _
  · exact answerAlike_relatch c p0 p1 cur (t := (s.setValid false).respond _) rfl

variable {s : State} (hv : s.valid = false)
include hv

theorem setShadow_answerAlike (d : Settings) :
    AnswerAlike (setShadow d s) (setShadow d (s.relatch c p0 p1 cur)) :=
  answerAlike_relatch c p0 p1 cur (t := (s.setSh d).respond 0) hv

/-- A command that needs `valid` raises Unconfigured whatever its body would read (R94, R98). -/
theorem requireValid_answerAlike (i : Instr) (body body' : Host.Outcome State Fault Refusal) :
    AnswerAlike (requireValid i s body) (requireValid i (s.relatch c p0 p1 cur) body') := by
  have hv' : (s.relatch c p0 p1 cur).valid = false := hv
  simp only [requireValid, hv, hv', Bool.false_eq_true, if_false]
  exact answerAlike_relatch c p0 p1 cur (t := s.recordFault .unconfigured (encode i)) hv

theorem exec_answerAlike (i : Instr) : AnswerAlike (exec i s) (exec i (s.relatch c p0 p1 cur)) := by
  cases i with
  | setpack | setpl0 | setpl1 | setfb0 | setord | setpre | setsuf | setcnt =>
    exact setShadow_answerAlike c p0 p1 cur hv _
  | init => exact execInit_answerAlike c p0 p1 cur s
  | reqlen => exact answerAlike_relatch c p0 p1 cur (t := s.respond (BitVec.ofNat 32 (physLen s.sh))) hv
  | restart => exact answerAlike_relatch c p0 p1 0 (t := (s.setCursor 0).respond 0) hv
  | fill | isfin | next => exact requireValid_answerAlike c p0 p1 cur hv _ _ _

end

/-- Settles O40, command by command. -/
theorem invalidStateHidesTheLatch : Obligations.InvalidStateHidesTheLatch :=
  fun i _ c p0 p1 cur hv => exec_answerAlike c p0 p1 cur hv i

end Sys2Proof.Machine
end

section
/-!
PROOF. What NEXT answers in a configured block, zone by zone (spec/41_encoder.md R85, R86).
-/

namespace Sys2Proof.Machine

/-- The Data zone is the 24 units per LED after the leading guard bytes (R85). -/
theorem zone_eq_dataZone {c : Settings} {pos : Nat} (hlo : c.prefixLen.toNat ≤ pos)
    (hhi : pos < c.prefixLen.toNat + 24 * c.count.toNat) : zone c pos = .dataZone := by
  rw [zone, if_neg (by omega), if_pos hhi]

/-- The LED byte whose bits stand at offset `off` into the data (R86). -/
def dataByte (s : State) (off : Nat) : Byte := chan s (off / 24) (channelOf (off % 24 / 8))

section
variable {s : State} (hv : s.valid = true)
include hv

/-- A guard step answers 0 and moves by 1. -/
theorem exec_next_guard (hz : zone s.cfg s.cursor.toNat = .prefixZone ∨ zone s.cfg s.cursor.toNat = .suffixZone) :
    exec .next s = .next ((s.setCursor (s.cursor + 1)).respond 0) := by
  rcases hz with hz | hz <;> simp only [exec, execNext, requireValid, hv, hz, if_true]

variable {off : Nat} (hc : s.cursor.toNat = s.cfg.prefixLen.toNat + off) (hoff : off < 24 * s.cfg.count.toNat)
include hc hoff

theorem exec_next_data : exec .next s = nextData off s := by
  have hz : zone s.cfg s.cursor.toNat = .dataZone := zone_eq_dataZone (by omega) (by omega)
  have e : s.cursor.toNat - s.cfg.prefixLen.toNat = off := by omega
  simp only [exec, execNext, requireValid, hv, hz, e, if_true]

variable (hl : off / 24 < s.ledCap)
include hl

/-- A SINGLE data step answers the template of one bit and moves by 1. -/
theorem exec_next_single (hp : s.cfg.packing = 0x00) :
    exec .next s = .next ((s.setCursor (s.cursor + 1)).respond
      (zext32 (enc1 s (bitAt (dataByte s off) (7 - off % 8))))) := by
  rw [exec_next_data hv hc hoff, nextData, if_neg (by omega), if_pos hp, dataByte]

/-- A DOUBLE data step at an even offset answers the templates of two bits and moves by 2. -/
theorem exec_next_double (hp : s.cfg.packing ≠ 0x00) (heven : off % 2 = 0) :
    exec .next s = .next ((s.setCursor (s.cursor + 2)).respond
      (zext32 (enc2 s (bitAt (dataByte s off) (7 - off % 8)) (bitAt (dataByte s off) (6 - off % 8))))) := by
  rw [exec_next_data hv hc hoff, nextData, if_neg (by omega), if_neg hp, if_pos (by omega), dataByte]

end

end Sys2Proof.Machine
end

section
/-!
PROOF. Host writes, and the LED bytes the block reads (spec/20_memory.md R29 to R31, R43, R44).
-/

namespace Sys2Proof.Machine

theorem step_of_host_writeLed {s : State} {a : Nat} {v : Byte} {rest : List HostAction}
    (hh : s.host = .writeLed a v :: rest) : step s = hostWriteLed a v (s.setHost rest) := by
  simp only [step, performNext, hh, perform]

theorem step_of_host_writeOut {s : State} {a : Nat} {v : Byte} {rest : List HostAction}
    (hh : s.host = .writeOut a v :: rest) : step s = hostWriteOut a v (s.setHost rest) := by
  simp only [step, performNext, hh, perform]

theorem hostWriteLed_of_lt {s : State} {a : Nat} (v : Byte) (ha : a < 3 * s.ledCap) :
    hostWriteLed a v s = .next (s.setLed (memWrite s.led a v)) :=
  if_pos ha

theorem hostWriteOut_of_lt {s : State} {a : Nat} (v : Byte) (ha : a < s.outSize) :
    hostWriteOut a v s = .next (s.setOut (memWrite s.out a v)) :=
  if_pos ha

/-- Settles O45: inside the memory a host write is `memWrite`, which reads as written there and as before elsewhere. -/
theorem hostWritesOneByte : Obligations.HostWritesOneByte := by
  intro s a v rest
  refine ⟨fun hh ha => ?_, fun hh ha => ?_⟩
  · exact ⟨_, (step_of_host_writeLed hh).trans (hostWriteLed_of_lt v ha), rfl, memRead_memWrite_same s.led a v,
      fun _ hb => memRead_memWrite_other s.led v hb⟩
  · exact ⟨_, (step_of_host_writeOut hh).trans (hostWriteOut_of_lt v ha), rfl, memRead_memWrite_same s.out a v,
      fun _ hb => memRead_memWrite_other s.out v hb⟩

/-- A channel of an LED is the byte written at its place in the record (R30, R40). -/
theorem chan_of_memRead {s : State} {i : Nat} {c : Channel} {v : Byte}
    (h : memRead s.led (3 * i + channelOffset c) = some v) : chan s i c = v := by
  rw [chan, ledRead, h, Option.getD_some]

/-- Settles O18: the offsets of green, red and blue in a record are 1, 0 and 2. -/
theorem channelBytesComeFromTheRecord : Obligations.ChannelBytesComeFromTheRecord :=
  fun _ _ _ => ⟨chan_of_memRead (c := .green), chan_of_memRead (c := .red), chan_of_memRead (c := .blue)⟩

/-- After a write of the LED byte at an offset into the data that byte is the one written (R44). -/
theorem dataByte_setLed_memWrite (s : State) (off : Nat) (v : Byte) :
    dataByte (s.setLed (memWrite s.led (3 * (off / 24) + channelOffset (channelOf (off % 24 / 8))) v)) off = v :=
  chan_of_memRead (memRead_memWrite_same s.led _ v)

theorem channelOffset_lt (c : Channel) : channelOffset c < 3 := by
  cases c <;> decide

/-- Settles O46: after the write the byte the data step encodes is `v`, and the templates and the cursor are as before
it. -/
theorem nextSeesTheLastLedWrite : Obligations.NextSeesTheLastLedWrite := by
  intro s t off v rest hv hc hoff hl hh ht
  have hin := channelOffset_lt (channelOf (off % 24 / 8))
  rw [step_of_host_writeLed hh, hostWriteLed_of_lt v (by simp only [State.setHost_ledCap]; omega)] at ht
  cases ht
  refine ⟨fun hp => ⟨_, exec_next_single (s := (s.setHost rest).setLed _) hv hc hoff hl hp, ?_⟩,
    fun hp heven => ⟨_, exec_next_double (s := (s.setHost rest).setLed _) hv hc hoff hl hp heven, ?_⟩⟩
  · rw [State.respond_resp, dataByte_setLed_memWrite]
    rfl
  · rw [State.respond_resp, dataByte_setLed_memWrite]
    rfl

end Sys2Proof.Machine
end

section
/-!
PROOF. The stream in progress does not see the shadow registers (spec/20_memory.md R47,
spec/70_reset_and_hazards.md R113).
-/

namespace Sys2Proof.Machine

/-- The outcome with its next state changed by `f`; a stop stays as it is. -/
def mapNext (f : State → State) : Host.Outcome State Fault Refusal → Host.Outcome State Fault Refusal
  | .next t => .next (f t)
  | .fault r => .fault r
  | .refused r => .refused r

/-- A data step carries other shadow registers along. -/
theorem nextData_setSh (c : Settings) (off : Nat) (s : State) :
    nextData off (s.setSh c) = mapNext (State.setSh c) (nextData off s) := by
  simp only [nextData, apply_ite (mapNext (State.setSh c))]
  rfl

/-- NEXT carries other shadow registers along. -/
theorem exec_next_setSh (c : Settings) (s : State) :
    exec .next (s.setSh c) = mapNext (State.setSh c) (exec .next s) := by
  simp only [exec, execNext, requireValid, apply_ite (mapNext (State.setSh c)), nextData_setSh, State.setSh_valid,
    State.setSh_cfg, State.setSh_cursor]
  cases zone s.cfg s.cursor.toNat <;> rfl

/-- NEXT overwrites the response port. -/
theorem exec_next_respond (v : Word) (s : State) : exec .next (s.respond v) = exec .next s := rfl

/-- A drain carries other shadow registers along. -/
theorem drain_setSh (c : Settings) (n : Nat) (s : State) :
    drain n (s.setSh c) = (drain n s).map (fun p => (p.1, p.2.setSh c)) := by
  induction n generalizing s with
  | zero => rfl
  | succ n ih =>
    simp only [drain, exec_next_setSh]
    cases exec .next s with
    | next t =>
      simp only [mapNext, State.setSh_resp]
      cases t.resp with
      | none => rfl
      | some r => simp only [ih, Option.map_map]; rfl
    | fault r => rfl
    | refused r => rfl

/-- What the response port held shows neither in the responses of a drain nor in its cursor. -/
theorem drain_respond (v : Word) (n : Nat) (s : State) :
    (drain n (s.respond v)).map (fun p => (p.1, p.2.cursor)) = (drain n s).map (fun p => (p.1, p.2.cursor)) := by
  cases n with
  | zero => rfl
  | succ n => simp only [drain, exec_next_respond]

/-- ISFIN answers whether the stream is finished, and nothing while `valid` is 0 (R84, R94). -/
theorem isfinAnswer_eq (s : State) :
    isfinAnswer s = if s.valid = true then some (if finished s then 1 else 0) else none := by
  cases hv : s.valid <;> simp [isfinAnswer, exec, execIsfin, requireValid, hv, raise, State.recordFault]

/-- Settles O32: a SET command replaces only the shadow record and the response. -/
theorem setDoesNotDisturbTheStream : Obligations.SetDoesNotDisturbTheStream := by
  intro s t i hi h
  cases exec_cases h with
  | set _ c =>
    refine ⟨rfl, ?_, fun n => ?_⟩
    · rw [isfinAnswer_eq, isfinAnswer_eq]
      rfl
    · rw [drain_respond, drain_setSh, Option.map_map]
      rfl
  | unconfigured hi' => rcases hi' with rfl | rfl | rfl <;> exact hi.elim
  | _ => exact hi.elim

end Sys2Proof.Machine
end

section
/-!
PROOF. Which byte stands where in the stream (spec/41_encoder.md R80).
-/

namespace Sys2Proof.Machine

/-- A place inside block `i` of `n` blocks of `m` lies inside all of them. -/
theorem block_place_lt {m n i j : Nat} (hi : i < n) (hj : j < m) : m * i + j < m * n :=
  calc m * i + j
    _ < m * (i + 1) := Nat.add_lt_add_left hj _
    _ ≤ m * n := Nat.mul_le_mul_left m hi

/-- Where all blocks of a concatenation have `m` elements, block `i` begins at `m * i`. -/
theorem getElem?_flatMap_block {α β : Type} {f : α → List β} {m : Nat} (hf : ∀ a, (f a).length = m)
    (l : List α) {i j : Nat} (hi : i < l.length) (hj : j < m) : (l.flatMap f)[m * i + j]? = (f l[i])[j]? := by
  induction l generalizing i with
  | nil => cases hi
  | cons a l ih =>
    rw [List.flatMap_cons]
    cases i with
    | zero =>
      rw [List.getElem?_append_left (by rw [hf]; omega), Nat.mul_zero, Nat.zero_add]
      rfl
    | succ i =>
      have hi : i < l.length := Nat.lt_of_succ_lt_succ hi
      have e : m * (i + 1) + j - (f a).length = m * i + j := by rw [hf, Nat.mul_succ]; omega
      rw [List.getElem?_append_right (by rw [hf, Nat.mul_succ]; omega), e]
      exact ih hi

/-- How many bytes a channel takes: one per bit in SINGLE packing, one per two bits in DOUBLE (R80). -/
def bytesPerChannel (packing : Byte) : Nat := if packing = 0x00 then 8 else 4

theorem encodeChannel_length_eq (s : State) (x : Byte) :
    (encodeChannel s x).length = bytesPerChannel s.cfg.packing :=
  encodeChannel_length s x

theorem bytesPerLed_eq (packing : Byte) : bytesPerLed packing = 3 * bytesPerChannel packing := by
  unfold bytesPerLed bytesPerChannel
  split <;> rfl

/-- An LED is its channels 0, 1 and 2 in order (R79, R80). -/
theorem encodeLed_eq_flatMap (s : State) (i : Nat) :
    encodeLed s i = (List.range 3).flatMap fun c => encodeChannel s (chan s i (channelOf c)) := by
  simp [encodeLed, List.range_succ, channelOf]

section
variable (s : State)

/-- The stream begins with the leading guard bytes (R80). -/
theorem stream_prefix {k : Nat} (hk : k < s.cfg.prefixLen.toNat) : (stream s)[k]? = some 0x00 := by
  rw [stream, List.append_assoc, List.getElem?_append_left (by simpa [guardBytes] using hk), guardBytes,
    List.getElem?_replicate_of_lt hk]

theorem data_length : ((List.range s.cfg.count.toNat).flatMap (encodeLed s)).length =
    s.cfg.count.toNat * bytesPerLed s.cfg.packing := by
  simp [List.length_flatMap, encodeLed_length]

/-- The data follow the leading guard bytes (R80). -/
theorem stream_data {k : Nat} (hk : k < s.cfg.count.toNat * bytesPerLed s.cfg.packing) :
    (stream s)[s.cfg.prefixLen.toNat + k]? = ((List.range s.cfg.count.toNat).flatMap (encodeLed s))[k]? := by
  rw [stream, List.append_assoc, List.getElem?_append_right (by simp [guardBytes]),
    List.getElem?_append_left (by rw [data_length]; simpa [guardBytes] using hk)]
  simp [guardBytes]

/-- The trailing guard bytes follow the data (R80). -/
theorem stream_suffix {k : Nat} (hlo : s.cfg.prefixLen.toNat + s.cfg.count.toNat * bytesPerLed s.cfg.packing ≤ k)
    (hhi : k < physLen s.cfg) : (stream s)[k]? = some 0x00 := by
  have hlen : (guardBytes s.cfg.prefixLen ++ (List.range s.cfg.count.toNat).flatMap (encodeLed s)).length =
      s.cfg.prefixLen.toNat + s.cfg.count.toNat * bytesPerLed s.cfg.packing := by
    rw [List.length_append, data_length, guardBytes, List.length_replicate]
  rw [physLen] at hhi
  rw [stream, List.getElem?_append_right (by omega), hlen, guardBytes, List.getElem?_replicate_of_lt (by omega)]

/-- The data of LED `i`, channel `c`, in the stream is that channel's encoding (R80). -/
theorem stream_channel {i c j : Nat} (hi : i < s.cfg.count.toNat) (hc : c < 3)
    (hj : j < bytesPerChannel s.cfg.packing) :
    (stream s)[s.cfg.prefixLen.toNat + (bytesPerLed s.cfg.packing * i + (bytesPerChannel s.cfg.packing * c + j))]? =
      (encodeChannel s (chan s i (channelOf c)))[j]? := by
  have hin : bytesPerChannel s.cfg.packing * c + j < bytesPerLed s.cfg.packing := by
    rw [bytesPerLed_eq, Nat.mul_comm 3]
    exact block_place_lt hc hj
  have hdata : bytesPerLed s.cfg.packing * i + (bytesPerChannel s.cfg.packing * c + j) <
      s.cfg.count.toNat * bytesPerLed s.cfg.packing := by
    rw [Nat.mul_comm s.cfg.count.toNat]
    exact block_place_lt hi hin
  rw [stream_data s hdata, getElem?_flatMap_block (encodeLed_length s) _ (by simpa using hi) hin, List.getElem_range,
    encodeLed_eq_flatMap, getElem?_flatMap_block (fun _ => encodeChannel_length_eq s _) _ (by simpa using hc) hj,
    List.getElem_range]

end

/-- Byte `b` of a channel in SINGLE packing. -/
theorem encodeChannel_single {s : State} (hp : s.cfg.packing = 0x00) (x : Byte) {b : Nat} (hb : b < 8) :
    (encodeChannel s x)[b]? = some (enc1 s (bitAt x (7 - b))) := by
  rw [encodeChannel, if_pos hp]
  interval_cases b <;> rfl

/-- Byte `j` of a channel in DOUBLE packing. -/
theorem encodeChannel_double {s : State} (hp : s.cfg.packing ≠ 0x00) (x : Byte) {j : Nat} (hj : j < 4) :
    (encodeChannel s x)[j]? = some (enc2 s (bitAt x (7 - 2 * j)) (bitAt x (6 - 2 * j))) := by
  rw [encodeChannel, if_neg hp]
  interval_cases j <;> rfl

/-- The byte of SINGLE data offset `off` is the template of its bit (R80). -/
theorem stream_single {s : State} (hp : s.cfg.packing = 0x00) {off : Nat} (hoff : off < 24 * s.cfg.count.toNat) :
    (stream s)[s.cfg.prefixLen.toNat + off]? = some (enc1 s (bitAt (dataByte s off) (7 - off % 8))) := by
  have h := stream_channel s (i := off / 24) (c := off % 24 / 8) (j := off % 8) (by omega) (by omega)
  simp only [bytesPerLed, bytesPerChannel, if_pos hp] at h
  have e : 24 * (off / 24) + (8 * (off % 24 / 8) + off % 8) = off := by omega
  rw [← encodeChannel_single hp _ (by omega), dataByte, ← h (by omega), e]

/-- The byte of an even DOUBLE data offset `off` is the templates of its two bits (R80). -/
theorem stream_double {s : State} (hp : s.cfg.packing ≠ 0x00) {off : Nat} (hoff : off < 24 * s.cfg.count.toNat)
    (heven : off % 2 = 0) :
    (stream s)[s.cfg.prefixLen.toNat + off / 2]? =
      some (enc2 s (bitAt (dataByte s off) (7 - off % 8)) (bitAt (dataByte s off) (6 - off % 8))) := by
  have h := stream_channel s (i := off / 24) (c := off % 24 / 8) (j := off % 8 / 2) (by omega) (by omega)
  simp only [bytesPerLed, bytesPerChannel, if_neg hp] at h
  have e : 12 * (off / 24) + (4 * (off % 24 / 8) + off % 8 / 2) = off / 2 := by omega
  have e2 : 2 * (off % 8 / 2) = off % 8 := by omega
  have hc := encodeChannel_double hp (dataByte s off) (j := off % 8 / 2) (by omega)
  rw [e2] at hc
  rw [← hc, dataByte, ← h (by omega), e]

end Sys2Proof.Machine
end

section
/-!
PROOF. NEXT answers the stream's byte for its cursor (spec/20_memory.md R35, spec/41_encoder.md R86).
-/

namespace Sys2Proof.Machine

section
variable {c : Settings} {pos : Nat}

theorem streamIndex_of_le_prefixLen (h : pos ≤ c.prefixLen.toNat) : streamIndex c pos = pos :=
  if_pos (.inr h)

theorem streamIndex_single (hp : c.packing = 0x00) : streamIndex c pos = pos :=
  if_pos (.inl hp)

/-- In DOUBLE data one byte stands for two units of the cursor (R35). -/
theorem streamIndex_double (hp : c.packing ≠ 0x00) {off : Nat} (hoff : off ≤ 24 * c.count.toNat) :
    streamIndex c (c.prefixLen.toNat + off) = c.prefixLen.toNat + off / 2 := by
  simp only [streamIndex, hp, false_or]
  split_ifs <;> omega

/-- From the end of the data on, what the index lags behind the cursor is what the data is shorter than 24 bytes per
LED (R35). -/
theorem streamIndex_suffix (h : c.prefixLen.toNat + 24 * c.count.toNat ≤ pos) :
    streamIndex c pos + 24 * c.count.toNat = pos + c.count.toNat * bytesPerLed c.packing := by
  by_cases hp : c.packing = 0x00
  · rw [streamIndex_single hp, bytesPerLed, if_pos hp]
    omega
  · simp only [streamIndex, bytesPerLed, hp, false_or, if_false]
    split_ifs <;> omega

end

/-- The packings INIT accepts (R69). -/
theorem packing_of_validate_ok {c : Settings} (h : validate c = .ok) : c.packing = 0x00 ∨ c.packing = 0x01 := by
  unfold validate at h
  split at h
  · cases h
  · next hp => exact Decidable.or_iff_not_not_and_not.2 hp

/-- At this state NEXT answers the stream's byte for the cursor and moves to the next one. -/
def NextMatchesStream (s : State) : Prop :=
  ∃ t b, exec .next s = .next t ∧ (stream s)[streamIndex s.cfg s.cursor.toNat]? = some b ∧
    t.resp = some (zext32 b) ∧ streamIndex s.cfg t.cursor.toNat = streamIndex s.cfg s.cursor.toNat + 1

section
variable {s : State}

theorem nextMatchesStream_of_answer {b : Byte} {pos : Word}
    (hnext : exec .next s = .next ((s.setCursor pos).respond (zext32 b)))
    (hbyte : (stream s)[streamIndex s.cfg s.cursor.toNat]? = some b)
    (hmove : streamIndex s.cfg pos.toNat = streamIndex s.cfg s.cursor.toNat + 1) : NextMatchesStream s :=
  ⟨_, b, hnext, hbyte, rfl, hmove⟩

variable (hv : s.valid = true) (hlt : s.cursor.toNat < virtLen s.cfg)
include hv hlt

theorem nextMatchesStream_prefix (hz : zone s.cfg s.cursor.toNat = .prefixZone) : NextMatchesStream s := by
  have hb := prefixZone_bounds hz
  have hstep : (s.cursor + 1).toNat = s.cursor.toNat + 1 := cursor_add_toNat hlt (by decide)
  refine nextMatchesStream_of_answer (b := 0x00) (exec_next_guard hv (.inl hz)) ?_ ?_
  · rw [streamIndex_of_le_prefixLen hb.le, stream_prefix s hb]
  · rw [hstep, streamIndex_of_le_prefixLen hb, streamIndex_of_le_prefixLen hb.le]

theorem nextMatchesStream_suffix (hz : zone s.cfg s.cursor.toNat = .suffixZone) : NextMatchesStream s := by
  obtain ⟨hlo, -⟩ := suffixZone_bounds hz
  have hstep : (s.cursor + 1).toNat = s.cursor.toNat + 1 := cursor_add_toNat hlt (by decide)
  have hidx := streamIndex_suffix hlo
  have hidx' := streamIndex_suffix (c := s.cfg) (pos := s.cursor.toNat + 1) (by omega)
  refine nextMatchesStream_of_answer (b := 0x00) (exec_next_guard hv (.inr hz)) ?_ ?_
  · refine stream_suffix s (by omega) ?_
    unfold virtLen at hlt
    unfold physLen
    omega
  · rw [hstep]
    omega

variable {off : Nat} (hc : s.cursor.toNat = s.cfg.prefixLen.toNat + off) (hoff : off < 24 * s.cfg.count.toNat)
  (hl : off / 24 < s.ledCap)
include hc hoff hl

theorem nextMatchesStream_single (hp : s.cfg.packing = 0x00) : NextMatchesStream s := by
  have hstep : (s.cursor + 1).toNat = s.cursor.toNat + 1 := cursor_add_toNat hlt (by decide)
  refine nextMatchesStream_of_answer (exec_next_single hv hc hoff hl hp) ?_ ?_
  · rw [streamIndex_single hp, hc, stream_single hp hoff]
  · rw [streamIndex_single hp, streamIndex_single hp, hstep]

theorem nextMatchesStream_double (hp : s.cfg.packing ≠ 0x00) (heven : off % 2 = 0) : NextMatchesStream s := by
  have hstep : (s.cursor + 2).toNat = s.cursor.toNat + 2 := cursor_add_toNat hlt (by decide)
  refine nextMatchesStream_of_answer (exec_next_double hv hc hoff hl hp heven) ?_ ?_
  · rw [hc, streamIndex_double hp hoff.le, stream_double hp hoff heven]
  · rw [hstep, hc, Nat.add_assoc _ off 2, streamIndex_double hp hoff.le, streamIndex_double hp (by omega)]
    omega

end

/-- Settles O27, by the zone of the cursor and in the data by the packing; the invariant keeps a DOUBLE cursor even. -/
theorem nextAnswersTheStreamByte : Obligations.NextAnswersTheStreamByte := by
  intro s hs hv hlt hcap
  cases hz : zone s.cfg s.cursor.toNat with
  | prefixZone => exact nextMatchesStream_prefix hv hlt hz
  | dataZone =>
    obtain ⟨hlo, hhi⟩ := dataZone_bounds hz
    obtain ⟨off, hc⟩ := Nat.exists_eq_add_of_le hlo
    have hoff : off < 24 * s.cfg.count.toNat := by omega
    by_cases hp : s.cfg.packing = 0x00
    · exact nextMatchesStream_single hv hlt hc hoff (by omega) hp
    · obtain ⟨hok, -, -, heven⟩ := hs.2 hv
      have heven := heven ((packing_of_validate_ok hok).resolve_left hp) hlo hhi
      exact nextMatchesStream_double hv hlt hc hoff (by omega) hp (by omega)
  | suffixZone => exact nextMatchesStream_suffix hv hlt hz
  | doneZone => exact absurd hlt (Nat.not_lt.2 (doneZone_bounds hz))

end Sys2Proof.Machine
end

section
/-!
PROOF. The decoder and the encoder are inverse to each other (spec/30_encoding.md R50, R51, R54, R60): a word of a
format is `OP * 2^24 + IMM`, so it is determined by its fields, and `decode` reads exactly these.
-/

namespace Sys2Proof

/-! ### The three formats -/

/-- `(OP << 24) | IMM` is a sum when the immediate lies in bits 23:0 (R60). -/
theorem encodeWord_toNat (op : Byte) {imm : Word} (h : imm.toNat < 2 ^ 24) :
    (encodeWord op imm).toNat = op.toNat * 2 ^ 24 + imm.toNat := by
  have hop := op.isLt
  have hor := Nat.shiftLeft_add_eq_or_of_lt h op.toNat
  rw [Nat.shiftLeft_eq] at hor
  rw [encodeWord, BitVec.toNat_or, BitVec.toNat_shiftLeft, BitVec.toNat_setWidth, Nat.shiftLeft_eq,
    Nat.mod_eq_of_lt (by omega), Nat.mod_eq_of_lt (by omega), hor]

/-- The word of format C8 with a given opcode and immediate is the one with these fields and bits 23:8 zero (R50). -/
theorem encodeC8_eq_iff {op v : Byte} {w : Word} :
    encodeC8 op v = w ↔ opField w = op ∧ w.extractLsb' 8 16 = 0#16 ∧ imm8Field w = v := by
  have hv := v.isLt
  have hw := w.isLt
  have hsum := encodeWord_toNat op (imm := v.setWidth 32) (by rw [BitVec.toNat_setWidth]; omega)
  simp only [← BitVec.toNat_inj, encodeC8, hsum, opField, imm8Field, BitVec.extractLsb'_toNat, BitVec.toNat_setWidth,
    Nat.shiftRight_eq_div_pow, BitVec.toNat_ofNat]
  omega

/-- The word of format C16 with a given opcode and immediate is the one with these fields and bits 23:16 zero (R50). -/
theorem encodeC16_eq_iff {op : Byte} {v : Half} {w : Word} :
    encodeC16 op v = w ↔ opField w = op ∧ w.extractLsb' 16 8 = 0#8 ∧ imm16Field w = v := by
  have hv := v.isLt
  have hw := w.isLt
  have hsum := encodeWord_toNat op (imm := v.setWidth 32) (by rw [BitVec.toNat_setWidth]; omega)
  simp only [← BitVec.toNat_inj, encodeC16, hsum, opField, imm16Field, BitVec.extractLsb'_toNat, BitVec.toNat_setWidth,
    Nat.shiftRight_eq_div_pow, BitVec.toNat_ofNat]
  omega

/-- The word of format C0 with a given opcode is the one with this opcode and bits 23:0 zero (R50). -/
theorem encodeC0_eq_iff {op : Byte} {w : Word} : encodeC0 op = w ↔ opField w = op ∧ w.extractLsb' 0 24 = 0#24 := by
  have hw := w.isLt
  have hsum := encodeWord_toNat op (imm := 0#32) (by decide)
  simp only [← BitVec.toNat_inj, encodeC0, hsum, opField, BitVec.extractLsb'_toNat, Nat.shiftRight_eq_div_pow,
    BitVec.ofNat_eq_ofNat, BitVec.toNat_ofNat]
  omega

theorem ite_ok_error_eq_ok_iff {p : Prop} [Decidable p] {e : DecodeError} {i j : Instr} :
    (if p then Except.ok j else .error e) = .ok i ↔ p ∧ j = i := by
  split
  · next h => simp [h]
  · next h => simp [h]

/-- What a row of format C8 accepts, and what it reads (R54). -/
theorem decodeC8_eq_ok_iff {mk : Byte → Instr} {w : Word} {i : Instr} :
    decodeC8 mk w = .ok i ↔ w.extractLsb' 8 16 = 0#16 ∧ mk (imm8Field w) = i :=
  ite_ok_error_eq_ok_iff

/-- What a row of format C16 accepts, and what it reads (R54). -/
theorem decodeC16_eq_ok_iff {mk : Half → Instr} {w : Word} {i : Instr} :
    decodeC16 mk w = .ok i ↔ w.extractLsb' 16 8 = 0#8 ∧ mk (imm16Field w) = i :=
  ite_ok_error_eq_ok_iff

/-- What a row of format C0 accepts (R54). -/
theorem decodeC0_eq_ok_iff {w : Word} {i j : Instr} : decodeC0 j w = .ok i ↔ w.extractLsb' 0 24 = 0#24 ∧ j = i :=
  ite_ok_error_eq_ok_iff

@[simp] theorem decodeC8_encodeC8 (mk : Byte → Instr) (op v : Byte) : decodeC8 mk (encodeC8 op v) = .ok (mk v) := by
  obtain ⟨-, hzero, himm⟩ := encodeC8_eq_iff.1 (Eq.refl (encodeC8 op v))
  exact decodeC8_eq_ok_iff.2 ⟨hzero, congrArg mk himm⟩

@[simp] theorem decodeC16_encodeC16 (mk : Half → Instr) (op : Byte) (v : Half) :
    decodeC16 mk (encodeC16 op v) = .ok (mk v) := by
  obtain ⟨-, hzero, himm⟩ := encodeC16_eq_iff.1 (Eq.refl (encodeC16 op v))
  exact decodeC16_eq_ok_iff.2 ⟨hzero, congrArg mk himm⟩

@[simp] theorem decodeC0_encodeC0 (i : Instr) (op : Byte) : decodeC0 i (encodeC0 op) = .ok i :=
  decodeC0_eq_ok_iff.2 ⟨(encodeC0_eq_iff.1 rfl).2, rfl⟩

section
variable {w : Word} {i : Instr} {n : Nat} (hop : (opField w).toNat = n)
include hop

/-- A word that the row of a C8 command decodes is the word of that command (R50, R54). -/
theorem encode_of_decodeC8 {mk : Byte → Instr} (henc : ∀ v, encode (mk v) = encodeC8 (.ofNat 8 n) v)
    (h : decodeC8 mk w = .ok i) : encode i = w := by
  obtain ⟨hzero, rfl⟩ := decodeC8_eq_ok_iff.1 h
  exact (henc _).trans (encodeC8_eq_iff.2 ⟨by simp [← hop], hzero, rfl⟩)

/-- A word that the row of a C16 command decodes is the word of that command (R50, R54). -/
theorem encode_of_decodeC16 {mk : Half → Instr} (henc : ∀ v, encode (mk v) = encodeC16 (.ofNat 8 n) v)
    (h : decodeC16 mk w = .ok i) : encode i = w := by
  obtain ⟨hzero, rfl⟩ := decodeC16_eq_ok_iff.1 h
  exact (henc _).trans (encodeC16_eq_iff.2 ⟨by simp [← hop], hzero, rfl⟩)

/-- A word that the row of a C0 command decodes is the word of that command (R50, R54). -/
theorem encode_of_decodeC0 {j : Instr} (henc : encode j = encodeC0 (.ofNat 8 n)) (h : decodeC0 j w = .ok i) :
    encode i = w := by
  obtain ⟨hzero, rfl⟩ := decodeC0_eq_ok_iff.1 h
  exact henc.trans (encodeC0_eq_iff.2 ⟨by simp [← hop], hzero⟩)

end

/-! ### The decoder -/

/-- The word of a command carries its opcode, and the row of that opcode reads the immediate back (R53, R54). -/
theorem decode_encode (i : Instr) : decode (encode i) = .ok i := by
  cases i with
  | setpack v | setpl0 v | setpl1 v | setfb0 v | setord v =>
    simp only [encode, decode, opField_encodeC8, decodeC8_encodeC8, BitVec.reduceToNat]
  | setpre v | setsuf v | setcnt v =>
    simp only [encode, decode, opField_encodeC16, decodeC16_encodeC16, BitVec.reduceToNat]
  | init | reqlen | fill | restart | isfin | next =>
    simp only [encode, decode, opField_encodeC0, decodeC0_encodeC0, BitVec.reduceToNat]

/-- By the opcode: five rows of format C8, three of format C16, six of format C0, and the reserved rest (R53, R54). -/
theorem encode_of_decode {w : Word} {i : Instr} (h : decode w = .ok i) : encode i = w := by
  unfold decode at h
  split at h
  iterate 5 next hop => exact encode_of_decodeC8 hop (fun _ => rfl) h
  iterate 3 next hop => exact encode_of_decodeC16 hop (fun _ => rfl) h
  iterate 6 next hop => exact encode_of_decodeC0 hop rfl h
  · cases h

/-- The words that decode are the words of commands, each with its own command. -/
theorem decode_eq_ok_iff {w : Word} {i : Instr} : decode w = .ok i ↔ encode i = w :=
  ⟨encode_of_decode, fun h => h ▸ decode_encode i⟩

/-- Settles O2, format by format. -/
theorem decodeInvertsEncode : Obligations.DecodeInvertsEncode := decode_encode

/-- Settles O3: the row that decoded the word fixes all its fields. -/
theorem encodeInvertsDecode : Obligations.EncodeInvertsDecode := fun _ _ => encode_of_decode

/-- Settles O1: each of the seven words is the word of its command; the other two by their opcode and zero bits. -/
theorem sampleWordsDecode : Obligations.SampleWordsDecode := by
  unfold Obligations.SampleWordsDecode
  simp only [decode_eq_ok_iff]
  decide

end Sys2Proof
end

section
/-!
PROOF. The words that are no commands, and the configuration values that are no errors before INIT (spec/30_encoding.md
R54, R55, spec/40_configuration.md R61 to R65, R69).
-/

namespace Sys2Proof.Machine

/-! ### Illegal words -/

/-- An unfaulted block records IllegalCommand for a word that decodes to no command (R54, R95). -/
theorem step_of_illegal_word {s : State} {w : Word} {rest : List HostAction} (hf : s.fault = none)
    (hh : s.host = .command w :: rest) (hd : ∀ i, decode w ≠ .ok i) :
    step s = .next { s with host := rest, fault := some (.illegalCommand, w), resp := none } := by
  rw [step_of_host_command hh]
  obtain ⟨k, old, hk, -⟩ | ⟨-, i, hi, -⟩ | ⟨-, -, e⟩ := takeCommand_cases w (s.setHost rest)
  · cases hf.symm.trans hk
  · exact absurd hi (hd i)
  · exact e

/-- Settles O4: a word decodes to a command exactly when it is the command's word, which its fields determine. -/
theorem wordsDecodeByTheirFields : Obligations.WordsDecodeByTheirFields := by
  refine ⟨fun w i => decode_eq_ok_iff.trans ?_, fun s w rest => step_of_illegal_word⟩
  cases i with
  | setpack v | setpl0 v | setpl1 v | setfb0 v | setord v => exact encodeC8_eq_iff
  | setpre v | setsuf v | setcnt v => exact encodeC16_eq_iff
  | init | reqlen | fill | restart | isfin | next => exact eq_comm

/-- The opcodes of each format (R53). -/
theorem encode_formats (i : Instr) :
    (∃ op v, encode i = encodeC8 op v ∧ 0x10 ≤ op.toNat ∧ op.toNat ≤ 0x14) ∨
    (∃ op v, encode i = encodeC16 op v ∧ 0x15 ≤ op.toNat ∧ op.toNat ≤ 0x17) ∨
    (∃ op, encode i = encodeC0 op ∧ (op.toNat = 0x20 ∨ 0x30 ≤ op.toNat ∧ op.toNat ≤ 0x34)) := by
  cases i with
  | setpack v | setpl0 v | setpl1 v | setfb0 v | setord v => exact .inl ⟨_, v, rfl, by decide, by decide⟩
  | setpre v | setsuf v | setcnt v => exact .inr (.inl ⟨_, v, rfl, by decide, by decide⟩)
  | init | reqlen | fill | restart | isfin | next => exact .inr (.inr ⟨_, rfl, by decide⟩)

/-- The opcode and the zero bits of a word that decodes, by its format (R50, R53). -/
theorem fields_of_decode {w : Word} {i : Instr} (h : decode w = .ok i) :
    ((0x10 ≤ (opField w).toNat ∧ (opField w).toNat ≤ 0x14) ∧ w.extractLsb' 8 16 = 0#16) ∨
    ((0x15 ≤ (opField w).toNat ∧ (opField w).toNat ≤ 0x17) ∧ w.extractLsb' 16 8 = 0#8) ∨
    (((opField w).toNat = 0x20 ∨ 0x30 ≤ (opField w).toNat ∧ (opField w).toNat ≤ 0x34) ∧ w.extractLsb' 0 24 = 0#24) := by
  obtain ⟨op, v, e, hlo⟩ | ⟨op, v, e, hlo⟩ | ⟨op, e, hlo⟩ := encode_formats i
  · obtain ⟨rfl, hzero, -⟩ := encodeC8_eq_iff.1 (e.symm.trans (encode_of_decode h))
    exact .inl ⟨hlo, hzero⟩
  · obtain ⟨rfl, hzero, -⟩ := encodeC16_eq_iff.1 (e.symm.trans (encode_of_decode h))
    exact .inr (.inl ⟨hlo, hzero⟩)
  · obtain ⟨rfl, hzero⟩ := encodeC0_eq_iff.1 (e.symm.trans (encode_of_decode h))
    exact .inr (.inr ⟨hlo, hzero⟩)

/-! ### Illegal configuration values -/

/-- The values with a run length (R56). -/
theorem mem_runMasks_of_run {v : Byte} {n : Nat} (h : run v = some n) :
    v ∈ [0x01, 0x03, 0x07, 0x0F, 0x1F, 0x3F, 0x7F] := by
  have hn : n ∈ runLengths := List.mem_of_find?_eq_some h
  rw [eq_runmask_of_run h]
  exact List.mem_map_of_mem (f := runmask) hn

/-- The two-valued fields INIT accepts after the packing (R69). -/
theorem enums_of_validate_ok {c : Settings} (h : validate c = .ok) :
    (c.fb0 = 0x00 ∨ c.fb0 = 0x01) ∧ (c.order = 0x00 ∨ c.order = 0x01) := by
  obtain ⟨n0, n1, h0, h1, -⟩ := runs_of_validate_ok h
  simp only [validate, h0, h1] at h
  split at h
  · cases h
  · unfold validateRuns at h
    split_ifs at h with hfb hord
    exact ⟨Decidable.or_iff_not_not_and_not.2 hfb, Decidable.or_iff_not_not_and_not.2 hord⟩

/-- Every value of a configuration INIT accepts is in its legal set (R56, R57, R69). -/
theorem legal_of_validate_ok {c : Settings} (h : validate c = .ok) :
    c.packing ∈ [0x00, 0x01] ∧ c.pl0 ∈ [0x01, 0x03, 0x07, 0x0F, 0x1F, 0x3F, 0x7F] ∧
    c.pl1 ∈ [0x01, 0x03, 0x07, 0x0F, 0x1F, 0x3F, 0x7F] ∧ c.fb0 ∈ [0x00, 0x01] ∧ c.order ∈ [0x00, 0x01] := by
  obtain ⟨n0, n1, h0, h1, -⟩ := runs_of_validate_ok h
  obtain ⟨hfb, hord⟩ := enums_of_validate_ok h
  exact ⟨List.mem_pair.2 (packing_of_validate_ok h), mem_runMasks_of_run h0, mem_runMasks_of_run h1,
    List.mem_pair.2 hfb, List.mem_pair.2 hord⟩

/-- INIT of a configuration that fails a check answers the code of that check (R75). -/
theorem exec_init_of_invalid {s : State} (h : validate s.sh ≠ .ok) :
    exec .init s = .next ((s.setValid false).respond (zext32 (statusCode (validate s.sh)))) := by
  show execInit s = _
  unfold execInit
  split
  · next hok => exact absurd hok h
  · rfl

/-- The status code of a failed check is not that of OK (R59). -/
theorem zext32_statusCode_ne_zero {st : Status} (h : st ≠ .ok) : zext32 (statusCode st) ≠ 0 := by
  cases st with
  | ok => exact absurd rfl h
  | _ => decide

/-- Settles O5: an illegal word has none of the fields of a word that decodes; the SET commands check nothing; INIT
accepts legal values only. -/
theorem reservedEncodingsAreIllegal : Obligations.ReservedEncodingsAreIllegal := by
  refine ⟨fun s w rest hf hh hw => step_of_illegal_word hf hh fun i hi => ?_, fun s v => ?_, fun s hbad => ?_⟩
  · obtain ⟨hop, hzero⟩ | ⟨hop, hzero⟩ | ⟨hop, hzero⟩ := fields_of_decode hi
    all_goals
      simp only [hzero, BitVec.ofNat_eq_ofNat, ne_eq, not_true_eq_false, and_false, false_or, or_false] at hw
      omega
  · exact ⟨⟨_, setShadow_eq _ s, rfl, rfl⟩, ⟨_, setShadow_eq _ s, rfl, rfl⟩, ⟨_, setShadow_eq _ s, rfl, rfl⟩,
      ⟨_, setShadow_eq _ s, rfl, rfl⟩, ⟨_, setShadow_eq _ s, rfl, rfl⟩⟩
  · have hv : validate s.sh ≠ .ok := by
      intro hok
      obtain ⟨hpk, hl0, hl1, hfb, hord⟩ := legal_of_validate_ok hok
      rcases hbad with h | h | h | h | h
      all_goals contradiction
    exact ⟨_, _, exec_init_of_invalid hv, rfl, rfl, zext32_statusCode_ne_zero hv⟩

end Sys2Proof.Machine
end

section
/-!
PROOF. The assembler (spec/30_encoding.md R60): which lines assemble, and to which words.
-/

namespace Sys2Proof.Machine

theorem assemble_eq_some_iff {x : Source} {ws : List Word} :
    assemble x = some ws ↔ x.wellFormed = true ∧ (expand x).map encode = ws := by
  unfold assemble
  split
  · next h => simp [h]
  · next h => simp [h]

/-- A line with a number in a field of `k` bits, whose largest value is `m`, assembles to `(OP << 24) | IMM` (R60). -/
theorem assemble_number (k : Nat) (op : Byte) {x : Source} {n m : Nat} (hwf : x.wellFormed = decide (n ≤ m))
    (hx : (expand x).map encode = [encodeWord op ((BitVec.ofNat k n).setWidth 32)])
    (hm : m < 2 ^ k := by decide) (hk : k ≤ 32 := by decide) :
    assemble x = if n ≤ m then some [(op.setWidth 32 <<< 24) ||| BitVec.ofNat 32 n] else none := by
  simp only [assemble, hwf, hx, decide_eq_true_eq]
  split
  · next hn => rw [encodeWord, BitVec.setWidth_ofNat_of_le_of_lt hk (Nat.lt_of_le_of_lt hn hm)]
  · rfl

/-- The words of DRAIN (R60). -/
theorem assemble_drain (n : Nat) : assemble (.drain n) = some (List.replicate n 0x34000000) :=
  assemble_eq_some_iff.2 ⟨rfl, List.map_replicate⟩

/-- CONFIGURE assembles to the words of its eight SET lines and of INIT, when these assemble (R60). -/
theorem assemble_configure {pk l0 l1 f o : Operand} {p q n : Nat} {w0 w1 w2 w3 w4 w5 w6 w7 : Word}
    (h0 : assemble (.setpack pk) = some [w0]) (h1 : assemble (.setpl0 l0) = some [w1])
    (h2 : assemble (.setpl1 l1) = some [w2]) (h3 : assemble (.setfb0 f) = some [w3])
    (h4 : assemble (.setord o) = some [w4]) (h5 : assemble (.setpre p) = some [w5])
    (h6 : assemble (.setsuf q) = some [w6]) (h7 : assemble (.setcnt n) = some [w7]) :
    assemble (.configure pk l0 l1 f o p q n) = some [w0, w1, w2, w3, w4, w5, w6, w7, 0x20000000] := by
  simp only [assemble_eq_some_iff, Source.wellFormed, expand, List.map_cons, List.map_nil, List.cons.injEq, and_true,
    Bool.and_eq_true] at *
  simp only [h0, h1, h2, h3, h4, h5, h6, h7, true_and]
  rfl

/-- Settles O6: each line with a number by its field's width, DRAIN and CONFIGURE by their expansions. -/
theorem assemblerChecksAndPlacesImmediates : Obligations.AssemblerChecksAndPlacesImmediates := by
  refine ⟨fun n => ⟨?_, ?_, ?_, ?_, ?_, ?_, ?_, ?_, assemble_drain n⟩,
    fun pk l0 l1 f o p q n w0 w1 w2 w3 w4 w5 w6 w7 => assemble_configure⟩
  · exact assemble_number 8 0x10 rfl rfl
  · exact assemble_number 8 0x11 rfl rfl
  · exact assemble_number 8 0x12 rfl rfl
  · exact assemble_number 8 0x13 rfl rfl
  · exact assemble_number 8 0x14 rfl rfl
  · exact assemble_number 16 0x15 rfl rfl
  · exact assemble_number 16 0x16 rfl rfl
  · exact assemble_number 16 0x17 rfl rfl

end Sys2Proof.Machine
end

section
/-!
PROOF. The SET commands and INIT (spec/40_configuration.md R61 to R69, R75, R76): what a SET word does to the shadow
registers, and what INIT answers.
-/

namespace Sys2Proof.Machine

/-! ### SET -/

/-- Settles O7: every SET command is `setShadow` of its own record. -/
theorem setCommandsComplete : Obligations.SetCommandsComplete := fun s _ _ =>
  ⟨setShadow_eq _ s, setShadow_eq _ s, setShadow_eq _ s, setShadow_eq _ s, setShadow_eq _ s, setShadow_eq _ s,
    setShadow_eq _ s, setShadow_eq _ s⟩

/-! ### INIT -/

/-- INIT of a configuration that passes every check latches and compiles it (R75). -/
theorem exec_init_of_valid {s : State} (h : validate s.sh = .ok) :
    exec .init s = .next ((s.latch s.sh (compile s.sh)).respond 0) := by
  show execInit s = _
  unfold execInit
  rw [h]
  rfl

/-- INIT answers the status code of the shadow registers, and `valid` says whether it is OK (R69, R75). -/
theorem exec_init_answers (s : State) :
    ∃ t, exec .init s = .next t ∧ t.resp = some (zext32 (statusCode (validate s.sh))) ∧
      t.valid = decide (validate s.sh = .ok) := by
  by_cases h : validate s.sh = .ok
  · exact ⟨_, exec_init_of_valid h, by rw [h]; rfl, (decide_eq_true h).symm⟩
  · exact ⟨_, exec_init_of_invalid h, rfl, (decide_eq_false h).symm⟩

/-- Settles O12: equal shadow registers pass the same checks, and what INIT latches comes from them alone. -/
theorem initIsPureInTheShadows : Obligations.InitIsPureInTheShadows := by
  intro s s' hsh
  by_cases h : validate s.sh = .ok
  · refine ⟨_, _, exec_init_of_valid h, exec_init_of_valid (hsh ▸ h), rfl, fun _ => ?_⟩
    simp [hsh]
  · refine ⟨_, _, exec_init_of_invalid h, exec_init_of_invalid (hsh ▸ h), by simp [hsh], fun hok => ?_⟩
    exact absurd (Option.some.inj hok) (zext32_statusCode_ne_zero h)

/-- Settles O11: INIT latches or rejects, and its word has no immediate. -/
theorem initLatchesOrRejects : Obligations.InitLatchesOrRejects := by
  refine ⟨fun s => exec_init_of_valid, fun s => exec_init_of_invalid, fun s w rest hf hh hop hnz => ?_⟩
  have hop : (opField w).toNat = 0x20 := congrArg BitVec.toNat hop
  exact reservedEncodingsAreIllegal.1 s w rest hf hh (.inr (.inr (.inr (.inr (.inr (.inr ⟨.inl hop, hnz⟩))))))

/-! ### The checks of INIT -/

/-- A value without a run length is none of the seven run masks (R12, R56). -/
theorem not_mem_runMasks_of_run {v : Byte} (h : run v = none) : v ∉ [0x01, 0x03, 0x07, 0x0F, 0x1F, 0x3F, 0x7F] := by
  have hrun : ∀ u ∈ ([0x01, 0x03, 0x07, 0x0F, 0x1F, 0x3F, 0x7F] : List Byte), run u ≠ none := by decide
  exact fun hv => hrun v hv h

/-- A run length is one of the accepted ones (R8, R56). -/
theorem mem_runLengths_of_run {v : Byte} {n : Nat} (h : run v = some n) : n ∈ runLengths :=
  List.mem_of_find?_eq_some h

/-- Run lengths compare as their run masks do (R70). -/
theorem run_le_iff {u v : Byte} {m n : Nat} (hu : run u = some m) (hv : run v = some n) :
    m ≤ n ↔ u.toNat ≤ v.toNat := by
  have hle : ∀ m ∈ runLengths, ∀ n ∈ runLengths, m ≤ n ↔ (runmask m).toNat ≤ (runmask n).toNat := by decide
  rw [eq_runmask_of_run hu, eq_runmask_of_run hv]
  exact hle m (mem_runLengths_of_run hu) n (mem_runLengths_of_run hv)

/-- The run masks too long for DOUBLE packing (R71). -/
theorem doubleMaxRun_lt_iff {v : Byte} {n : Nat} (h : run v = some n) :
    doubleMaxRun < n ↔ v ∈ [0x0F, 0x1F, 0x3F, 0x7F] := by
  have hlong : ∀ n ∈ runLengths, doubleMaxRun < n ↔ runmask n ∈ [0x0F, 0x1F, 0x3F, 0x7F] := by decide
  rw [eq_runmask_of_run h]
  exact hlong n (mem_runLengths_of_run h)

/-- The checks of INIT by the values of the shadow registers, in order (R69 to R71). -/
theorem validate_eq (c : Settings) : validate c =
    if c.packing ∉ [0x00, 0x01] then .invalidPacking
    else if c.pl0 ∉ [0x01, 0x03, 0x07, 0x0F, 0x1F, 0x3F, 0x7F] then .invalidPulseLen0
    else if c.pl1 ∉ [0x01, 0x03, 0x07, 0x0F, 0x1F, 0x3F, 0x7F] then .invalidPulseLen1
    else if c.fb0 ∉ [0x00, 0x01] then .invalidFirstBitFlag
    else if c.order ∉ [0x00, 0x01] then .invalidBitOrder
    else if c.pl1.toNat ≤ c.pl0.toNat then .pulseOrderingViolation
    else if c.packing = 0x01 ∧ c.pl1 ∈ [0x0F, 0x1F, 0x3F, 0x7F] then .pulseTooLongForPacking
    else .ok := by
  simp only [validate, validateRuns, ne_eq, ← not_or, ← List.mem_pair]
  refine ite_congr rfl (fun _ => rfl) fun _ => ?_
  cases h0 : run c.pl0 with
  | none => rw [if_pos (not_mem_runMasks_of_run h0)]
  | some n0 =>
    rw [if_neg (not_not.2 (mem_runMasks_of_run h0))]
    cases h1 : run c.pl1 with
    | none => rw [if_pos (not_mem_runMasks_of_run h1)]
    | some n1 =>
      rw [if_neg (not_not.2 (mem_runMasks_of_run h1))]
      simp only [run_le_iff h1 h0, doubleMaxRun_lt_iff h1]

/-- A status is OK exactly when the response that carries its code is 0 (R59). -/
theorem zext32_statusCode_eq_zero_iff {st : Status} : zext32 (statusCode st) = 0x00 ↔ st = .ok :=
  ⟨fun h => by_contra fun hne => zext32_statusCode_ne_zero hne h, fun h => h ▸ rfl⟩

/-- Settles O10: the response is the code of `validate`, whose checks are those of R69 in their order. -/
theorem initReportsFirstFailingCheck : Obligations.InitReportsFirstFailingCheck := by
  intro s
  obtain ⟨t, hexec, hresp, hvalid⟩ := exec_init_answers s
  refine ⟨t, _, hexec, hresp, ?_, ?_⟩
  · simp only [hvalid, zext32_statusCode_eq_zero_iff]
  · simp only [validate_eq, apply_ite statusCode, apply_ite zext32]
    rfl

/-! ### SET words, and what the next INIT says of them -/

section
variable {s : State} {w : Word} {rest : List HostAction} (hf : s.fault = none) (hh : s.host = .command w :: rest)
include hf hh

/-- A word of format C8 with one of the bits 23:8 set is illegal (R50, R55). -/
theorem step_of_illegal_C8 (hop : opField w ∈ [0x10, 0x11, 0x12, 0x13, 0x14]) (hnz : w.extractLsb' 8 16 ≠ 0) :
    step s = .next { s with host := rest, fault := some (.illegalCommand, w), resp := none } := by
  have hops : ∀ op ∈ ([0x10, 0x11, 0x12, 0x13, 0x14] : List Byte), 0x10 ≤ op.toNat ∧ op.toNat ≤ 0x14 := by decide
  exact reservedEncodingsAreIllegal.1 s w rest hf hh (.inr (.inr (.inr (.inr (.inl ⟨hops _ hop, hnz⟩)))))

/-- A word of format C16 with one of the bits 23:16 set is illegal (R50, R55). -/
theorem step_of_illegal_C16 (hop : opField w ∈ [0x15, 0x16, 0x17]) (hnz : w.extractLsb' 16 8 ≠ 0) :
    step s = .next { s with host := rest, fault := some (.illegalCommand, w), resp := none } := by
  have hops : ∀ op ∈ ([0x15, 0x16, 0x17] : List Byte), 0x15 ≤ op.toNat ∧ op.toNat ≤ 0x17 := by decide
  exact reservedEncodingsAreIllegal.1 s w rest hf hh (.inr (.inr (.inr (.inr (.inr (.inl ⟨hops _ hop, hnz⟩))))))

/-- The word of a SET command replaces the shadow record as the command does. -/
theorem step_of_set_word {i : Instr} {c : Settings} (hd : decode w = .ok i)
    (hset : exec i (s.setHost rest) = setShadow c (s.setHost rest)) :
    step s = .next { s with host := rest, sh := c, resp := some 0 } :=
  (stepRunsTheDecodedCommand s w rest i hf hh hd).trans hset

end

/-- INIT after a SET answers the status code of the record the SET left. -/
theorem init_after_set {i : Instr} {s : State} {c : Settings} {st : Status} (hset : exec i s = setShadow c s)
    (hst : validate c = st) :
    ∃ t u, exec i s = .next t ∧ exec .init t = .next u ∧ u.resp = some (zext32 (statusCode st)) := by
  obtain ⟨u, hexec, hresp, -⟩ := exec_init_answers ((s.setSh c).respond 0)
  exact ⟨_, u, hset, hexec, hst ▸ hresp⟩

/-- Settles O8: the word decodes by its fields, and the checks of R69 find the value the SET left. -/
theorem setWordsOfFormatC8 : Obligations.SetWordsOfFormatC8 := by
  have hd := wordsDecodeByTheirFields.1
  refine ⟨fun s w rest hf hh hop => ⟨fun hnz => ?_, fun hz => ⟨fun h => ?_, fun h => ?_, fun h => ?_, fun h => ?_,
    fun h => ?_⟩⟩, fun s v => ⟨fun hv => ?_, fun hpk => ⟨fun hv => ?_, fun hl0 => ⟨fun hv => ?_, fun hl1 =>
    ⟨fun hv => ?_, fun hfb hv => ?_⟩⟩⟩⟩⟩
  · exact step_of_illegal_C8 hf hh (by simpa using hop) hnz
  · exact step_of_set_word hf hh ((hd w (.setpack _)).2 ⟨h, hz, rfl⟩) rfl
  · exact step_of_set_word hf hh ((hd w (.setpl0 _)).2 ⟨h, hz, rfl⟩) rfl
  · exact step_of_set_word hf hh ((hd w (.setpl1 _)).2 ⟨h, hz, rfl⟩) rfl
  · exact step_of_set_word hf hh ((hd w (.setfb0 _)).2 ⟨h, hz, rfl⟩) rfl
  · exact step_of_set_word hf hh ((hd w (.setord _)).2 ⟨h, hz, rfl⟩) rfl
  · exact init_after_set (st := .invalidPacking) rfl (by rw [validate_eq, if_pos hv])
  · exact init_after_set (st := .invalidPulseLen0) rfl (by rw [validate_eq, if_neg (not_not.2 hpk), if_pos hv])
  · exact init_after_set (st := .invalidPulseLen1) rfl
      (by rw [validate_eq, if_neg (not_not.2 hpk), if_neg (not_not.2 hl0), if_pos hv])
  · exact init_after_set (st := .invalidFirstBitFlag) rfl
      (by rw [validate_eq, if_neg (not_not.2 hpk), if_neg (not_not.2 hl0), if_neg (not_not.2 hl1), if_pos hv])
  · exact init_after_set (st := .invalidBitOrder) rfl (by
      rw [validate_eq, if_neg (not_not.2 hpk), if_neg (not_not.2 hl0), if_neg (not_not.2 hl1),
        if_neg (not_not.2 hfb), if_pos hv])

/-- Settles O9: the word decodes by its fields, and no check of INIT reads a count. -/
theorem setWordsOfFormatC16 : Obligations.SetWordsOfFormatC16 := by
  have hd := wordsDecodeByTheirFields.1
  refine ⟨fun s w rest hf hh hop => ⟨fun hnz => ?_, fun hz => ⟨fun h => ?_, fun h => ?_, fun h => ?_⟩⟩,
    fun s p q n => ?_⟩
  · exact step_of_illegal_C16 hf hh (by simpa using hop) hnz
  · exact step_of_set_word hf hh ((hd w (.setpre _)).2 ⟨h, hz, rfl⟩) rfl
  · exact step_of_set_word hf hh ((hd w (.setsuf _)).2 ⟨h, hz, rfl⟩) rfl
  · exact step_of_set_word hf hh ((hd w (.setcnt _)).2 ⟨h, hz, rfl⟩) rfl
  · have hchecks : validate { s.sh with prefixLen := p, suffixLen := q, count := n } = validate s.sh := rfl
    obtain ⟨t, ht, hresp, -⟩ := exec_init_answers s
    obtain ⟨u, hu, hresp', -⟩ :=
      exec_init_answers { s with sh := { s.sh with prefixLen := p, suffixLen := q, count := n } }
    exact ⟨t, u, ht, hu, by rw [hresp', hresp, hchecks]⟩

end Sys2Proof.Machine
end

section
/-!
PROOF. The templates (spec/40_configuration.md R72 to R74): their values by the two tables, and what a peripheral sends
for them.
-/

namespace Sys2Proof.Machine

/-! ### Templates by option -/

section
variable {c : Settings} (l : Byte)

theorem firstBitShift_disabled (h : c.fb0 = 0x00) : firstBitShift c = 0 := by
  simp [firstBitShift, h]

theorem firstBitShift_enabled (h : c.fb0 = 0x01) : firstBitShift c = 1 := by
  simp [firstBitShift, h]

theorem template_lsbFirst (ho : c.order = 0x00) : template c l = l <<< firstBitShift c := by
  simp [template, ho]

theorem template_msbFirst_single (ho : c.order = 0x01) (hp : c.packing = 0x00) :
    template c l = rev8 (l <<< firstBitShift c) := by
  simp [template, ho, hp]

theorem template_msbFirst_double (ho : c.order = 0x01) (hp : c.packing = 0x01) :
    template c l = rev4 (l <<< firstBitShift c) := by
  simp [template, ho, hp]

end

/-- The two runs of a configuration that passes INIT's checks are run masks of lengths from 1 to 7, in DOUBLE packing
from 1 to 3 (R69 to R71). -/
theorem run_lengths_of_validate_ok {c : Settings} {n0 n1 : Nat} (h : validate c = .ok) (h0 : run c.pl0 = some n0)
    (h1 : run c.pl1 = some n1) :
    (n0 ∈ runLengths ∧ n1 ∈ runLengths) ∧ (c.packing = 0x01 → n0 ∈ [1, 2, 3] ∧ n1 ∈ [1, 2, 3]) := by
  have hshort : ∀ n ∈ runLengths, n ≤ doubleMaxRun → n ∈ [1, 2, 3] := by decide
  have hm0 := mem_runLengths_of_run h0
  have hm1 := mem_runLengths_of_run h1
  obtain ⟨m0, m1, e0, e1, hlt, hmax⟩ := runs_of_validate_ok h
  obtain rfl : n0 = m0 := Option.some.inj (h0.symm.trans e0)
  obtain rfl : n1 = m1 := Option.some.inj (h1.symm.trans e1)
  exact ⟨⟨hm0, hm1⟩, fun hp => ⟨hshort n0 hm0 (hlt.le.trans (hmax hp)), hshort n1 hm1 (hmax hp)⟩⟩

/-! ### The two tables -/

/-- After an INIT that leaves `valid` 1 the configuration has passed the checks and the templates are compiled from
it (R75). -/
theorem compiled_of_exec_init {s t : State} (h : exec .init s = .next t) (hv : t.valid = true) :
    validate s.sh = .ok ∧ t.pulse0 = template s.sh s.sh.pl0 ∧ t.pulse1 = template s.sh s.sh.pl1 := by
  cases exec_cases h with
  | set hi => exact hi.elim
  | latched hok => exact ⟨hok, rfl, rfl⟩
  | rejected => cases hv
  | unconfigured hi => simp at hi

/-- A table that lists the template of every run of some lengths lists the templates of two runs of such lengths. -/
theorem table_lists_templates {c : Settings} {table : List Byte} {lens : List Nat} {n0 n1 : Nat}
    (hn : n0 ∈ lens ∧ n1 ∈ lens) (h : ∀ n ∈ lens, table[n]? = some (template c (runmask n))) :
    table[n0]? = some (template c (runmask n0)) ∧ table[n1]? = some (template c (runmask n1)) :=
  ⟨h n0 hn.1, h n1 hn.2⟩

/-- Settles O14: in each of the eight option combinations the table lists the template of every run length. -/
theorem templatesFollowTheTables : Obligations.TemplatesFollowTheTables := by
  intro s t n0 n1 hexec hv h0 h1
  obtain ⟨hok, hp0, hp1⟩ := compiled_of_exec_init hexec hv
  obtain ⟨hn, hdouble⟩ := run_lengths_of_validate_ok hok h0 h1
  rw [hp0, hp1, eq_runmask_of_run h0, eq_runmask_of_run h1]
  refine ⟨fun hp => ⟨fun hf ho => ?_, fun hf ho => ?_, fun hf ho => ?_, fun hf ho => ?_⟩,
    fun hp => ⟨fun hf ho => ?_, fun hf ho => ?_, fun hf ho => ?_, fun hf ho => ?_⟩⟩
  · exact table_lists_templates hn (by
      simp only [template_lsbFirst _ ho, firstBitShift_disabled hf]
      decide)
  · exact table_lists_templates hn (by
      simp only [template_msbFirst_single _ ho hp, firstBitShift_disabled hf]
      decide)
  · exact table_lists_templates hn (by
      simp only [template_lsbFirst _ ho, firstBitShift_enabled hf]
      decide)
  · exact table_lists_templates hn (by
      simp only [template_msbFirst_single _ ho hp, firstBitShift_enabled hf]
      decide)
  · exact table_lists_templates (hdouble hp) (by
      simp only [template_lsbFirst _ ho, firstBitShift_disabled hf]
      decide)
  · exact table_lists_templates (hdouble hp) (by
      simp only [template_msbFirst_double _ ho hp, firstBitShift_disabled hf]
      decide)
  · exact table_lists_templates (hdouble hp) (by
      simp only [template_lsbFirst _ ho, firstBitShift_enabled hf]
      decide)
  · exact table_lists_templates (hdouble hp) (by
      simp only [template_msbFirst_double _ ho hp, firstBitShift_enabled hf]
      decide)

/-! ### The wire -/

/-- The bits a peripheral sends for the low nibble of a byte, first sent first (R36, R78). -/
def txNibble (v : Byte) (order : Byte) : List Bool :=
  if order = 0x00 then [bitAt v 0, bitAt v 1, bitAt v 2, bitAt v 3]
  else [bitAt v 3, bitAt v 2, bitAt v 1, bitAt v 0]

/-- Reversing a byte, bit by bit (R12). -/
theorem bitAt_rev8 (v : Byte) {i : Nat} (hi : i < 8) : bitAt (rev8 v) i = bitAt v (7 - i) := by
  unfold rev8 bitAt
  rw [BitVec.getLsbD_ofBoolListBE]
  interval_cases i <;> rfl

/-- Reversing the low nibble, bit by bit (R12). -/
theorem bitAt_rev4 (v : Byte) {i : Nat} (hi : i < 4) : bitAt (rev4 v) i = bitAt v (3 - i) := by
  unfold rev4 bitAt
  rw [BitVec.getLsbD_ofBoolListBE]
  interval_cases i <;> rfl

/-- Sent MSB first, a reversed byte is the byte sent LSB first (R12, R36). -/
theorem tx_rev8 (v : Byte) : tx (rev8 v) 0x01 = tx v 0x00 := by
  simp [tx, bitAt_rev8]

/-- Sent MSB first, a reversed nibble is the nibble sent LSB first (R12, R36). -/
theorem txNibble_rev4 (v : Byte) : txNibble (rev4 v) 0x01 = txNibble v 0x00 := by
  simp [txNibble, bitAt_rev4]

/-- Bits 3:0 of two nibbles are those of the second (R11). -/
theorem bitAt_nibbles_low (a b : Byte) {i : Nat} (hi : i < 4) : bitAt (nibbles a b) i = bitAt b i := by
  unfold bitAt nibbles
  rw [BitVec.getLsbD_append, if_pos hi, BitVec.getLsbD_extractLsb']
  simp [hi]

/-- Bits 7:4 of two nibbles are those of the first (R11). -/
theorem bitAt_nibbles_high (a b : Byte) {i : Nat} (hlo : 4 ≤ i) (hhi : i < 8) :
    bitAt (nibbles a b) i = bitAt a (i - 4) := by
  unfold bitAt nibbles
  rw [BitVec.getLsbD_append, if_neg (Nat.not_lt.2 hlo), BitVec.getLsbD_extractLsb']
  simp [show i - 4 < 4 by omega]

/-- Two nibbles on the wire: LSB first the low one, MSB first the high one (R36). -/
theorem tx_nibbles (a b order : Byte) : tx (nibbles a b) order =
    if order = 0x00 then txNibble b order ++ txNibble a order else txNibble a order ++ txNibble b order := by
  unfold tx txNibble
  split
  · simp [bitAt_nibbles_low, bitAt_nibbles_high]
  · simp [bitAt_nibbles_low, bitAt_nibbles_high]

/-- A pair's first bit is sent first, in both serial orders (R78). -/
theorem tx_enc2 (s : State) (x1 x2 : Bool) :
    tx (enc2 s x1 x2) s.cfg.order = txNibble (enc1 s x1) s.cfg.order ++ txNibble (enc1 s x2) s.cfg.order := by
  unfold enc2
  split
  · next ho => rw [tx_nibbles, if_pos ho]
  · next ho => rw [tx_nibbles, if_neg ho]

theorem firstBitShift_mem (c : Settings) : firstBitShift c ∈ [0, 1] := by
  unfold firstBitShift
  split <;> decide

/-- A pulse on the wire: `shift` zeros, `n` ones, and zeros up to `periods` bit periods (R74). -/
def pulse (periods shift n : Nat) : List Bool :=
  List.replicate shift false ++ List.replicate n true ++ List.replicate (periods - shift - n) false

/-- A shifted run mask, LSB first, is a pulse of its length in 8 bit periods (R72, R74). -/
theorem tx_runmask_shiftLeft :
    ∀ k ∈ [0, 1], ∀ n ∈ runLengths, tx (runmask n <<< k) 0x00 = pulse 8 k n := by decide

/-- A shifted run mask of at most 3 bits, LSB first, is a pulse of its length in 4 bit periods (R71, R72, R74). -/
theorem txNibble_runmask_shiftLeft :
    ∀ k ∈ [0, 1], ∀ n ∈ [1, 2, 3], txNibble (runmask n <<< k) 0x00 = pulse 4 k n := by decide

section
variable {c : Settings} {n : Nat} (ho : c.order = 0x00 ∨ c.order = 0x01)
include ho

/-- In SINGLE packing the wire undoes the serial order of a template: its run is sent as a pulse (R72, R74). -/
theorem tx_template (hp : c.packing = 0x00) (hn : n ∈ runLengths) :
    tx (template c (runmask n)) c.order = pulse 8 (firstBitShift c) n := by
  rw [← tx_runmask_shiftLeft _ (firstBitShift_mem c) n hn]
  rcases ho with ho | ho
  · rw [template_lsbFirst _ ho, ho]
  · rw [template_msbFirst_single _ ho hp, ho, tx_rev8]

/-- In DOUBLE packing the wire undoes the serial order of a template: its run is sent as a pulse (R72, R74). -/
theorem txNibble_template (hp : c.packing = 0x01) (hn : n ∈ [1, 2, 3]) :
    txNibble (template c (runmask n)) c.order = pulse 4 (firstBitShift c) n := by
  rw [← txNibble_runmask_shiftLeft _ (firstBitShift_mem c) n hn]
  rcases ho with ho | ho
  · rw [template_lsbFirst _ ho, ho]
  · rw [template_msbFirst_double _ ho hp, ho, txNibble_rev4]

end

/-- In a configured state a colour bit is encoded as the template of its own run (R77). -/
theorem enc1_eq_template {s : State} {n0 n1 : Nat} (hc : (s.pulse0, s.pulse1) = compile s.cfg)
    (h0 : run s.cfg.pl0 = some n0) (h1 : run s.cfg.pl1 = some n1) (x : Bool) :
    enc1 s x = template s.cfg (runmask (if x then n1 else n0)) := by
  obtain ⟨e0, e1⟩ := Prod.mk.inj hc
  rw [eq_runmask_of_run h0] at e0
  rw [eq_runmask_of_run h1] at e1
  cases x with
  | false => exact e0
  | true => exact e1

/-- The run of a colour bit has one of the lengths that both runs have. -/
theorem bit_run_mem {lens : List Nat} {n0 n1 : Nat} (hn : n0 ∈ lens ∧ n1 ∈ lens) (x : Bool) :
    (if x then n1 else n0) ∈ lens := by
  cases x with
  | false => exact hn.1
  | true => exact hn.2

/-- Settles O15: the wire undoes the serial order, and what is left is the shifted run mask of the bit's own run. -/
theorem pulsesSurviveTheWireOrder : Obligations.PulsesSurviveTheWireOrder := by
  intro s n0 n1 hs hv h0 h1
  obtain ⟨hok, hcomp, -⟩ := hs.2 hv
  obtain ⟨hn, hdouble⟩ := run_lengths_of_validate_ok hok h0 h1
  obtain ⟨-, ho⟩ := enums_of_validate_ok hok
  have henc := enc1_eq_template hcomp h0 h1
  refine ⟨fun hp x => ?_, fun hp x1 x2 => ?_⟩
  · rw [henc x]
    exact tx_template ho hp (bit_run_mem hn x)
  · rw [tx_enc2, henc x1, henc x2, txNibble_template ho hp (bit_run_mem (hdouble hp) x1),
      txNibble_template ho hp (bit_run_mem (hdouble hp) x2)]
    rfl

end Sys2Proof.Machine
end

section
/-!
PROOF. The zones of the cursor, and what the five encoder commands answer (spec/41_encoder.md R81 to R86).
-/

namespace Sys2Proof.Machine

/-! ### Zones -/

theorem zone_eq_prefixZone {c : Settings} {pos : Nat} (h : pos < c.prefixLen.toNat) : zone c pos = .prefixZone :=
  if_pos h

theorem zone_eq_suffixZone {c : Settings} {pos : Nat} (hlo : c.prefixLen.toNat + 24 * c.count.toNat ≤ pos)
    (hhi : pos < virtLen c) : zone c pos = .suffixZone := by
  rw [zone, if_neg (by omega), if_neg (by omega), if_pos hhi]

theorem zone_eq_doneZone {c : Settings} {pos : Nat} (h : virtLen c ≤ pos) : zone c pos = .doneZone := by
  have hsum : c.prefixLen.toNat + 24 * c.count.toNat + c.suffixLen.toNat ≤ pos := h
  rw [zone, if_neg (by omega), if_neg (by omega), if_neg (by omega)]

/-- Settles O24: each zone's bounds put a cursor in it, and a cursor in it has them. -/
theorem zonesAreTheCursorIntervals : Obligations.ZonesAreTheCursorIntervals := fun _ _ =>
  ⟨⟨prefixZone_bounds, zone_eq_prefixZone⟩, ⟨dataZone_bounds, fun h => zone_eq_dataZone h.1 h.2⟩,
    ⟨suffixZone_bounds, fun h => zone_eq_suffixZone h.1 h.2⟩, ⟨doneZone_bounds, zone_eq_doneZone⟩⟩

/-! ### Illegal words and unconfigured commands -/

/-- An encoder word with one of the bits 23:0 set is illegal (R50, R55). -/
theorem step_of_illegal_encoder_word {s : State} {w : Word} {rest : List HostAction} (op : Byte)
    (hop : opField w = op) (hge : 0x30 ≤ op.toNat) (hf : s.fault = none) (hh : s.host = .command w :: rest)
    (hnz : w.extractLsb' 0 24 ≠ 0) :
    step s = .next { s with host := rest, fault := some (.illegalCommand, w), resp := none } := by
  subst hop
  exact reservedEncodingsAreIllegal.1 s w rest hf hh (.inr (.inr (.inr (.inr (.inr (.inr ⟨.inr hge, hnz⟩))))))

section
variable {i : Instr} {s : State} {body : Host.Outcome State Fault Refusal}

/-- A configured block passes the check of `valid`. -/
theorem requireValid_of_valid (hv : s.valid = true) : requireValid i s body = body :=
  if_pos hv

/-- FILL, ISFIN and NEXT of an unconfigured block fault before anything else (R94, R98). -/
theorem exec_of_unconfigured (hi : i = .fill ∨ i = .isfin ∨ i = .next) (hv : s.valid = false) :
    exec i s = .next (s.recordFault .unconfigured (encode i)) := by
  have hinvalid : ¬ s.valid = true := by simp [hv]
  rcases hi with rfl | rfl | rfl <;> exact if_neg hinvalid

end

/-! ### REQLEN -/

/-- No packing takes more than the 24 bytes per LED of the virtual stream (R20, R81). -/
theorem physLen_le_virtLen (c : Settings) : physLen c ≤ virtLen c := by
  unfold physLen virtLen bytesPerLed
  split <;> omega

/-- Every length fits the response word (R9, R81). -/
theorem physLen_le (c : Settings) : physLen c ≤ 1703910 := (physLen_le_virtLen c).trans (virtLen_le c)

/-- Settles O19: the length fits 32 bits. -/
theorem reqlenAnswersTheLength : Obligations.ReqlenAnswersTheLength := by
  refine ⟨fun s => ⟨BitVec.ofNat 32 (physLen s.sh), rfl, ?_⟩,
    fun s w rest hf hh hop => step_of_illegal_encoder_word 0x30 hop (by decide) hf hh⟩
  have hle := physLen_le s.sh
  rw [BitVec.toNat_ofNat, Nat.mod_eq_of_lt (by omega)]
  refine ⟨?_, hle⟩
  unfold physLen bytesPerLed
  omega

/-- INIT latches the shadow record (R75), and no other command but SET writes either of the two. -/
theorem Effect.keeps_sh_eq_cfg {i : Instr} {s t : State} (h : Effect i s t) (hi : ¬ IsSet i) (hs : s.sh = s.cfg) :
    t.sh = t.cfg := by
  cases h with
  | set hset => exact absurd hset hi
  | latched => rfl
  | _ => exact hs

/-- Settles O20: REQLEN's formula reads the shadow record, and the stream's length is its value for the latched one. -/
theorem reqlenAgreesWithTheStream : Obligations.ReqlenAgreesWithTheStream := by
  refine ⟨fun s t h ht => ?_, fun s t i hi hs h => (exec_cases h).keeps_sh_eq_cfg hi hs, fun s hs => ?_⟩
  · by_cases hok : validate s.sh = .ok
    · cases (exec_init_of_valid hok).symm.trans h
      rfl
    · cases (exec_init_of_invalid hok).symm.trans h
      cases ht
  · have hlen : (stream s).length = physLen s.sh := by rw [stream_length, hs]
    rw [hlen]
    exact ⟨_, rfl, rfl, physLen_le s.sh⟩

/-! ### FILL -/

section
variable {s : State} (hv : s.valid = true)
include hv

theorem exec_fill_of_room (hl : physLen s.cfg ≤ s.outSize) (hn : s.cfg.count.toNat ≤ s.ledCap) :
    exec .fill s = .next ((s.setOut (memWriteBytes s.out 0 (stream s))).respond 0) := by
  rw [exec, execFill, requireValid_of_valid hv, if_neg (Nat.not_lt.2 hl), if_neg (Nat.not_lt.2 hn)]

theorem exec_fill_tooSmall (hl : s.outSize < physLen s.cfg) :
    exec .fill s = .next (s.recordFault .bufferTooSmall (encode .fill)) := by
  rw [exec, execFill, requireValid_of_valid hv, if_pos hl, raise]

theorem exec_fill_ledRange (hl : physLen s.cfg ≤ s.outSize) (hn : s.ledCap < s.cfg.count.toNat) :
    exec .fill s = .next (s.recordFault .ledRange (encode .fill)) := by
  rw [exec, execFill, requireValid_of_valid hv, if_neg (Nat.not_lt.2 hl), if_pos hn, raise]

end

/-- Bytes written from address 0 read back. -/
theorem memRead_memWriteBytes_zero (m : Memory) {vs : List Byte} {k : Nat} (hk : k < vs.length) :
    memRead (memWriteBytes m 0 vs) k = vs[k]? := by
  rw [memRead_memWriteBytes, if_pos (by omega), Nat.sub_zero]

/-- Bytes written from address 0 leave what lies behind them alone. -/
theorem memRead_memWriteBytes_zero_of_ge (m : Memory) {vs : List Byte} {a : Nat} (ha : vs.length ≤ a) :
    memRead (memWriteBytes m 0 vs) a = memRead m a := by
  rw [memRead_memWriteBytes, if_neg (by omega)]

/-- Settles O21, by R82's checks in their order. -/
theorem fillWritesTheStreamOrFaults : Obligations.FillWritesTheStreamOrFaults := by
  have hword : encode .fill = 0x31000000 := by decide
  refine ⟨fun s hv hl hn => ⟨_, exec_fill_of_room hv hl hn, rfl, stream_length s,
      fun k => memRead_memWriteBytes_zero s.out, fun a => memRead_memWriteBytes_zero_of_ge s.out⟩,
    fun s => ?_, fun s w rest hf hh hop => step_of_illegal_encoder_word 0x31 hop (by decide) hf hh⟩
  rw [stream_length, ← hword]
  exact ⟨exec_of_unconfigured (.inl rfl), exec_fill_tooSmall, exec_fill_ledRange⟩

/-! ### ISFIN and RESTART -/

/-- A configured ISFIN answers whether the stream is finished (R84). -/
theorem exec_isfin {s : State} (hv : s.valid = true) :
    exec .isfin s = .next (s.respond (if virtLen s.cfg ≤ s.cursor.toNat then 1 else 0)) := by
  simp only [exec, execIsfin, requireValid_of_valid hv, finished, decide_eq_true_eq]

theorem isfinAnswer_of_end {s : State} (hv : s.valid = true) (h : virtLen s.cfg ≤ s.cursor.toNat) :
    isfinAnswer s = some 1 := by
  simp only [isfinAnswer_eq, if_pos hv, finished, decide_eq_true h, if_true]

theorem isfinAnswer_of_lt {s : State} (hv : s.valid = true) (h : s.cursor.toNat < virtLen s.cfg) :
    isfinAnswer s = some 0 := by
  simp only [isfinAnswer_eq, if_pos hv, finished, decide_eq_false (Nat.not_le.2 h), Bool.false_eq_true, if_false]

/-- Settles O23: `virtLen` is R84's sum. -/
theorem isfinReportsTheEnd : Obligations.IsfinReportsTheEnd := by
  have hword : encode .isfin = 0x33000000 := by decide
  refine ⟨fun s => exec_isfin, fun s hv => ?_,
    fun s w rest hf hh hop => step_of_illegal_encoder_word 0x33 hop (by decide) hf hh⟩
  rw [← hword]
  exact exec_of_unconfigured (.inr (.inl rfl)) hv

/-- Settles O22: the cursor at 0 is before the end of every stream that is not empty. -/
theorem restartZeroesTheCursor : Obligations.RestartZeroesTheCursor := by
  refine ⟨fun s => rfl, fun s t h hv hV => ?_,
    fun s w rest hf hh hop => step_of_illegal_encoder_word 0x32 hop (by decide) hf hh⟩
  cases h
  exact isfinAnswer_of_lt hv hV

/-! ### NEXT -/

section
variable {s : State} (hv : s.valid = true)
include hv

/-- A finished NEXT answers 0 and writes no state (R86, R89). -/
theorem exec_next_done (h : virtLen s.cfg ≤ s.cursor.toNat) : exec .next s = .next (s.respond 0) := by
  rw [exec, execNext, requireValid_of_valid hv, zone_eq_doneZone h]

/-- A data step of an LED that LED does not hold faults (R86, R94). -/
theorem exec_next_ledRange {off : Nat} (hc : s.cursor.toNat = s.cfg.prefixLen.toNat + off)
    (hoff : off < 24 * s.cfg.count.toNat) (hl : s.ledCap ≤ off / 24) :
    exec .next s = .next (s.recordFault .ledRange (encode .next)) := by
  rw [exec_next_data hv hc hoff, nextData, if_pos hl, raise]

end

/-- Settles O25, zone by zone. -/
theorem nextAnswersByZone : Obligations.NextAnswersByZone := by
  have hword : encode .next = 0x34000000 := by decide
  rw [Obligations.NextAnswersByZone, ← hword]
  refine ⟨fun s hv => ⟨fun h => ?_, fun hlo hhi => ?_, exec_next_done hv, fun off hc hoff =>
      ⟨exec_next_ledRange hv hc hoff, exec_next_single hv hc hoff, exec_next_double hv hc hoff⟩⟩,
    fun s => exec_of_unconfigured (.inr (.inr rfl)),
    fun s w rest hf hh hop => step_of_illegal_encoder_word 0x34 hop (by decide) hf hh⟩
  · exact exec_next_guard hv (.inl (zone_eq_prefixZone h))
  · exact exec_next_guard hv (.inr (zone_eq_suffixZone hlo hhi))

end Sys2Proof.Machine
end

section
/-!
PROOF. Every byte of the stream, by its place (spec/41_encoder.md R80).
-/

namespace Sys2Proof.Machine

/-- Settles O17: the guard bytes lie outside the data, and inside it each channel's encoding has a place of its own. -/
theorem streamLayout : Obligations.StreamLayout := by
  intro s
  refine ⟨stream_length s, fun k => stream_prefix s, fun k hk => ?_, fun i c hi hc => ⟨fun hp j hj => ?_,
    fun hp j hj => ?_⟩⟩
  · rw [stream_length]
    exact stream_suffix s (by unfold physLen; omega) (by unfold physLen; omega)
  · have h := stream_channel s hi hc (j := j) (by rwa [bytesPerChannel, if_pos hp])
    simp only [bytesPerLed, bytesPerChannel, if_pos hp, ← Nat.add_assoc] at h
    rw [h, encodeChannel_single hp _ hj]
  · have h := stream_channel s hi hc (j := j) (by rwa [bytesPerChannel, if_neg hp])
    simp only [bytesPerLed, bytesPerChannel, if_neg hp, ← Nat.add_assoc] at h
    rw [h, encodeChannel_double hp _ hj]

end Sys2Proof.Machine
end

section
/-!
PROOF. Pulling the stream with NEXT (spec/41_encoder.md R86 to R90).
-/

namespace Sys2Proof.Machine

/-! ### Lengths and places -/

theorem physLen_single {c : Settings} (hp : c.packing = 0x00) : physLen c = virtLen c := by
  unfold physLen virtLen bytesPerLed
  rw [if_pos hp]
  omega

theorem physLen_double {c : Settings} (hp : c.packing = 0x01) :
    physLen c = c.prefixLen.toNat + 12 * c.count.toNat + c.suffixLen.toNat := by
  rw [physLen, bytesPerLed, if_neg (by rw [hp]; decide), Nat.mul_comm]

/-- The cursor has reached the end of the virtual stream exactly when its byte lies behind the stream (R35, R84). -/
theorem streamIndex_lt_physLen_iff {c : Settings} {pos : Nat} :
    streamIndex c pos < physLen c ↔ pos < virtLen c := by
  by_cases hp : c.packing = 0x00
  · rw [streamIndex_single hp, physLen_single hp]
  · simp only [streamIndex, physLen, virtLen, bytesPerLed, hp, false_or, if_false]
    split_ifs <;> omega

/-! ### One NEXT after another -/

/-- A drain of `n + 1` is a NEXT that answers and a drain of `n`. -/
theorem drain_succ_eq_some_iff {n : Nat} {s t : State} {rs : List Word} :
    drain (n + 1) s = some (rs, t) ↔
      ∃ s' r rs', exec .next s = .next s' ∧ s'.resp = some r ∧ drain n s' = some (rs', t) ∧ rs = r :: rs' := by
  constructor
  · intro h
    simp only [drain] at h
    split at h
    · next s' hs' =>
      split at h
      · next r hr =>
        obtain ⟨⟨rs', t'⟩, hd, e⟩ := Option.map_eq_some_iff.1 h
        cases e
        exact ⟨s', r, rs', hs', hr, hd, rfl⟩
      · cases h
    · cases h
    · cases h
  · rintro ⟨s', r, rs', hs', hr, hd, rfl⟩
    simp only [drain, hs', hr, hd, Option.map_some]

/-- Drains one after another are one drain. -/
theorem drain_add {m n : Nat} {s t u : State} {rs rs' : List Word} (hm : drain m s = some (rs, t))
    (hn : drain n t = some (rs', u)) : drain (m + n) s = some (rs ++ rs', u) := by
  induction m generalizing s rs with
  | zero =>
    cases hm
    simpa using hn
  | succ m ih =>
    obtain ⟨s', r, rest, hnext, hresp, hrest, rfl⟩ := drain_succ_eq_some_iff.1 hm
    rw [Nat.succ_add]
    exact drain_succ_eq_some_iff.2 ⟨s', r, rest ++ rs', hnext, hresp, ih hrest, rfl⟩

/-! ### The Done zone -/

/-- From the end on every NEXT answers 0 and writes only the response (R89). -/
theorem drain_done (n : Nat) {s : State} (hv : s.valid = true) (h : virtLen s.cfg ≤ s.cursor.toNat) :
    ∃ t, drain n s = some (List.replicate n 0, t) ∧ t = { s with resp := t.resp } := by
  induction n generalizing s with
  | zero => exact ⟨s, rfl, rfl⟩
  | succ n ih =>
    obtain ⟨t, ht, hframe⟩ := ih (s := s.respond 0) hv h
    exact ⟨t, drain_succ_eq_some_iff.2 ⟨_, 0, _, exec_next_done hv h, rfl, ht, rfl⟩, hframe⟩

/-- Settles O30: the Done zone answers zeros, and ISFIN compares the cursor with the virtual length. -/
theorem doneZoneIsTerminal : Obligations.DoneZoneIsTerminal := by
  refine ⟨fun s n hv h => ?_, fun s => isfinAnswer_of_lt⟩
  obtain ⟨t, ht, hframe⟩ := drain_done n hv h
  refine ⟨t, ht, hframe, ?_⟩
  rw [hframe]
  exact isfinAnswer_of_end (s := { s with resp := t.resp }) hv h

/-! ### The stream -/

/-- A good, configured block whose LEDs are all in LED: what the statements about pulling a stream begin from. -/
structure Pullable (s : State) : Prop where
  inv : Inv s
  configured : s.valid = true
  ledsPresent : s.cfg.count.toNat ≤ s.ledCap

/-- NEXT writes nothing the stream is made of (R44, R86). -/
theorem Effect.next_keeps_stream {s t : State} (h : Effect .next s t) : stream t = stream s := by
  cases h <;> rfl

/-- NEXT leaves a pullable block pullable. -/
theorem Pullable.next {s t : State} (hs : Pullable s) (h : exec .next s = .next t) :
    Pullable t ∧ t.cfg = s.cfg ∧ stream t = stream s := by
  have he := exec_cases h
  obtain ⟨hcfg, -, -, hv⟩ := he.latched_frame.resolve_left nofun
  obtain ⟨-, hcap, -⟩ := he.host_frame
  refine ⟨⟨exec_keeps_inv hs.inv h, hv.trans hs.configured, ?_⟩, hcfg, he.next_keeps_stream⟩
  rw [hcfg, hcap]
  exact hs.ledsPresent

/-- While the stream lasts, NEXT after NEXT answers its bytes from the cursor's on, and the cursor moves by as many
(R86, R87). -/
theorem Pullable.drain_from_cursor {s : State} (hs : Pullable s) {n : Nat}
    (hn : streamIndex s.cfg s.cursor.toNat + n ≤ physLen s.cfg) :
    ∃ t, drain n s =
        some ((((stream s).drop (streamIndex s.cfg s.cursor.toNat)).take n).map zext32, t) ∧
      t.valid = true ∧ t.cfg = s.cfg ∧
      streamIndex s.cfg t.cursor.toNat = streamIndex s.cfg s.cursor.toNat + n := by
  induction n generalizing s with
  | zero => exact ⟨s, rfl, hs.configured, rfl, rfl⟩
  | succ n ih =>
    have hlt : s.cursor.toNat < virtLen s.cfg := streamIndex_lt_physLen_iff.1 (by omega)
    obtain ⟨t, b, hnext, hbyte, hresp, hmove⟩ :=
      nextAnswersTheStreamByte s hs.inv hs.configured hlt hs.ledsPresent
    obtain ⟨ht, hcfg, hstream⟩ := hs.next hnext
    obtain ⟨u, hdrain, hv, hcfg', hmove'⟩ := ih ht (by rw [hcfg, hmove]; omega)
    rw [hcfg, hmove] at hmove'
    refine ⟨u, drain_succ_eq_some_iff.2 ⟨t, zext32 b, _, hnext, hresp, hdrain, ?_⟩, hv, hcfg'.trans hcfg, by omega⟩
    obtain ⟨hk, rfl⟩ := List.getElem?_eq_some_iff.1 hbyte
    rw [hcfg, hmove, hstream, List.drop_eq_getElem_cons hk, List.take_succ_cons, List.map_cons]

section
variable {s : State} (hs : Pullable s) (hc : s.cursor = 0)
include hs hc

/-- The first `n` NEXTs answer the first `n` bytes of the stream, and it is finished when these are all (R87). -/
theorem Pullable.drain_take {n : Nat} (hn : n ≤ physLen s.cfg) :
    ∃ t, drain n s = some (((stream s).take n).map zext32, t) ∧ t.valid = true ∧
      (t.cursor.toNat < virtLen t.cfg ↔ n < physLen s.cfg) := by
  have hstart : streamIndex s.cfg s.cursor.toNat = 0 := by
    rw [hc]
    exact streamIndex_of_le_prefixLen (Nat.zero_le _)
  obtain ⟨t, hdrain, hv, hcfg, hmove⟩ := hs.drain_from_cursor (n := n) (by omega)
  rw [hstart, List.drop_zero] at hdrain
  refine ⟨t, hdrain, hv, ?_⟩
  rw [hcfg, ← streamIndex_lt_physLen_iff, hmove, hstart, Nat.zero_add]

/-- L NEXTs answer the whole stream and reach its end (R87). -/
theorem Pullable.drain_stream :
    ∃ t, drain (physLen s.cfg) s = some ((stream s).map zext32, t) ∧ t.valid = true ∧
      virtLen t.cfg ≤ t.cursor.toNat := by
  obtain ⟨t, hdrain, hv, hend⟩ := hs.drain_take hc le_rfl
  rw [List.take_of_length_le (stream_length s).le] at hdrain
  exact ⟨t, hdrain, hv, Nat.not_lt.1 fun h => Nat.lt_irrefl _ (hend.1 h)⟩

/-- ISFIN answers 1 when the whole stream has been pulled (R84, R87). -/
theorem Pullable.drain_stream_isfin :
    ∃ t, drain (physLen s.cfg) s = some ((stream s).map zext32, t) ∧ isfinAnswer t = some 1 := by
  obtain ⟨t, hdrain, hv, hend⟩ := hs.drain_stream hc
  exact ⟨t, hdrain, isfinAnswer_of_end hv hend⟩

end

/-- Settles O28: NEXT by NEXT the bytes of the stream, the same that FILL writes from address 0. -/
theorem drainEqualsFill : Obligations.DrainEqualsFill := by
  intro s hinv hv hc hcap
  have hs : Pullable s := ⟨hinv, hv, hcap⟩
  refine ⟨hs.drain_stream_isfin hc, fun n hn => ?_, physLen_single, physLen_double,
    fun hl => ⟨_, exec_fill_of_room hv hl hcap, fun k hk => ?_⟩⟩
  · obtain ⟨t, hdrain, htv, hend⟩ := hs.drain_take hc hn.le
    exact ⟨_, t, hdrain, isfinAnswer_of_lt htv (hend.2 hn)⟩
  · rw [State.respond_out, State.setOut_out, memRead_memWriteBytes_zero s.out (by rwa [stream_length]),
      List.getElem?_map]

/-- Settles O29: the stream, and then the Done zone. -/
theorem extraNextsAnswerZero : Obligations.ExtraNextsAnswerZero := by
  intro s hinv hv hc hcap
  have hs : Pullable s := ⟨hinv, hv, hcap⟩
  refine ⟨?_, fun hp => ?_, fun hp => ?_⟩
  · obtain ⟨t, hstream, htv, hend⟩ := hs.drain_stream hc
    obtain ⟨u, hzeros, -⟩ := drain_done (virtLen s.cfg - physLen s.cfg) htv hend
    have h := drain_add hstream hzeros
    rw [Nat.add_sub_cancel' (physLen_le_virtLen s.cfg)] at h
    exact ⟨u, h⟩
  · rw [physLen_single hp, Nat.sub_self]
  · rw [physLen_double hp, virtLen]
    omega

/-- RESTART leaves a pullable block pullable (R83). -/
theorem Pullable.restart {s : State} (hs : Pullable s) : Pullable ((s.setCursor 0).respond 0) :=
  ⟨exec_keeps_inv (i := .restart) hs.inv rfl, hs.configured, hs.ledsPresent⟩

/-- Settles O31: RESTART leaves what the stream is made of, and the drain begins again at 0. -/
theorem restartReplaysTheStream : Obligations.RestartReplaysTheStream := by
  intro s hinv hv hcap
  have hs : Pullable s := ⟨hinv, hv, hcap⟩
  exact ⟨_, rfl, rfl, rfl, rfl, restartZeroesTheCursor.2.1 s _ rfl hv, hs.restart.drain_stream_isfin rfl⟩

end Sys2Proof.Machine
end

section
/-!
PROOF. Faults (spec/60_exceptions.md R94, R95, R98): which command raises which kind and why, what a fault leaves, that
a good state refuses nothing, and that the block with nothing to do waits.
-/

namespace Sys2Proof.Machine

/-- R94's table: when the block raises a fault of the kind for a word that decodes as `d`, the causes apart from each
other by the order of R98. -/
def FaultCause (s : State) (d : Except DecodeError Instr) : FaultKind → Prop
  | .illegalCommand => ∀ i, d ≠ .ok i
  | .unconfigured => (d = .ok .fill ∨ d = .ok .isfin ∨ d = .ok .next) ∧ s.valid = false
  | .bufferTooSmall => d = .ok .fill ∧ s.valid = true ∧ s.outSize < physLen s.cfg
  | .ledRange =>
    (d = .ok .fill ∧ s.valid = true ∧ physLen s.cfg ≤ s.outSize ∧ s.ledCap < s.cfg.count.toNat) ∨
    (d = .ok .next ∧ s.valid = true ∧ zone s.cfg s.cursor.toNat = .dataZone ∧
      s.ledCap ≤ (s.cursor.toNat - s.cfg.prefixLen.toNat) / 24)

/-- No cause looks at what the host does next. -/
theorem faultCause_setHost {s : State} {d : Except DecodeError Instr} {k : FaultKind} (rest : List HostAction) :
    FaultCause (s.setHost rest) d k ↔ FaultCause s d k := by
  cases k <;> rfl

/-- A word that is no command raises IllegalCommand only: decoding comes first (R98). -/
theorem FaultCause.eq_illegalCommand {s : State} {e : DecodeError} {k : FaultKind} (h : FaultCause s (.error e) k) :
    k = .illegalCommand := by
  cases k with
  | illegalCommand => rfl
  | unconfigured => obtain ⟨h | h | h, -⟩ := h <;> cases h
  | bufferTooSmall => obtain ⟨⟨⟩, -⟩ := h
  | ledRange => obtain ⟨⟨⟩, -⟩ | ⟨⟨⟩, -⟩ := h

/-! ### From the fault to its cause -/

/-- A command keeps `fault`, or does nothing but record a fault that has its cause (R94, R95). -/
theorem Effect.fault_cases {i : Instr} {s t : State} (h : Effect i s t) :
    t.fault = s.fault ∨ ∃ k, FaultCause s (.ok i) k ∧ t = s.recordFault k (encode i) := by
  cases h with
  | unconfigured hi hv => exact .inr ⟨.unconfigured, ⟨by simpa using hi, hv⟩, rfl⟩
  | tooSmall hv hl => exact .inr ⟨.bufferTooSmall, ⟨rfl, hv, hl⟩, rfl⟩
  | fillRange hv hl hn => exact .inr ⟨.ledRange, .inl ⟨rfl, hv, hl, hn⟩, rfl⟩
  | nextRange hv hz hn => exact .inr ⟨.ledRange, .inr ⟨rfl, hv, hz, hn⟩, rfl⟩
  | _ => exact .inl rfl

/-- Only an unfaulted block takes a word, and it ends unfaulted, or with nothing but a fault that has its cause recorded
with that word (R95). -/
theorem takeCommand_fault_cases {w : Word} {s t : State} (h : takeCommand w s = .next t) :
    s.fault = none ∧ (t.fault = none ∨ ∃ k, FaultCause s (decode w) k ∧ t = s.recordFault k w) := by
  obtain ⟨k, old, -, e⟩ | ⟨hf, i, hd, e⟩ | ⟨hf, ⟨err, hd⟩, e⟩ := takeCommand_cases w s
  · cases e.symm.trans h
  · have he := exec_cases (e.symm.trans h)
    rw [← hf, hd, ← encode_of_decode hd]
    exact ⟨rfl, he.fault_cases⟩
  · cases e.symm.trans h
    exact ⟨hf, .inr ⟨.illegalCommand, fun i hi => (nomatch hd.symm.trans hi), rfl⟩⟩

/-! ### From the cause to the fault -/

/-- A command with a cause of R94 records the fault of that kind. -/
theorem exec_of_faultCause {i : Instr} {s : State} {k : FaultKind} (h : FaultCause s (.ok i) k) :
    exec i s = .next (s.recordFault k (encode i)) := by
  cases k with
  | illegalCommand => exact absurd rfl (h i)
  | unconfigured => exact exec_of_unconfigured (by simpa using h.1) h.2
  | bufferTooSmall =>
    obtain ⟨⟨⟩, hv, hl⟩ := h
    exact exec_fill_tooSmall hv hl
  | ledRange =>
    obtain ⟨⟨⟩, hv, hl, hn⟩ | ⟨⟨⟩, hv, hz, hn⟩ := h
    · exact exec_fill_ledRange hv hl hn
    · obtain ⟨hlo, hhi⟩ := dataZone_bounds hz
      exact exec_next_ledRange hv (Nat.add_sub_cancel' hlo).symm (by omega) hn

/-- A word with a cause of R94 makes the unfaulted block record the fault of that kind. -/
theorem takeCommand_of_faultCause {w : Word} {s : State} {k : FaultKind} (hf : s.fault = none)
    (h : FaultCause s (decode w) k) : takeCommand w s = .next (s.recordFault k w) := by
  obtain ⟨_, _, hfault, -⟩ | ⟨-, i, hd, e⟩ | ⟨-, ⟨err, hd⟩, e⟩ := takeCommand_cases w s
  · cases hf.symm.trans hfault
  · rw [hd] at h
    rw [e, exec_of_faultCause h, encode_of_decode hd]
  · rw [hd] at h
    cases h.eq_illegalCommand
    exact e

/-- The unfaulted block records a fault exactly when R94's table has a cause of it. -/
theorem step_records_iff {s : State} {w : Word} {rest : List HostAction} (k : FaultKind) (hf : s.fault = none)
    (hh : s.host = .command w :: rest) :
    (∃ t, step s = .next t ∧ t.fault = some (k, w)) ↔ FaultCause s (decode w) k := by
  rw [step_of_host_command hh, ← faultCause_setHost rest]
  constructor
  · rintro ⟨t, h, ht⟩
    obtain ⟨-, hnone | ⟨k', hc, rfl⟩⟩ := takeCommand_fault_cases h
    · cases hnone.symm.trans ht
    · cases ht
      exact hc
  · exact fun hc => ⟨_, takeCommand_of_faultCause hf hc, rfl⟩

/-- Settles O36: each clause is the row of its kind in `FaultCause`. -/
theorem faultsHaveTheListedCauses : Obligations.FaultsHaveTheListedCauses := fun _ _ _ hf hh =>
  ⟨step_records_iff .illegalCommand hf hh, step_records_iff .unconfigured hf hh,
    step_records_iff .bufferTooSmall hf hh, step_records_iff .ledRange hf hh⟩

/-! ### The run's end -/

/-- A faulted block answers no step with a command in it (R23, R95). -/
theorem step_of_faulted_ne_next {s t : State} {w : Word} {rest : List HostAction} (hf : s.fault ≠ none)
    (hh : s.host = .command w :: rest) : step s ≠ .next t := by
  rw [step_of_host_command hh]
  exact fun h => hf (takeCommand_fault_cases h).1

/-- Settles O35: a command only records its fault, a faulted block takes none, and the steps that are left to it, but
for a reset, write memory only. -/
theorem faultEndsTheRun : Obligations.FaultEndsTheRun := by
  refine ⟨fun s t w rest hf hh h ht => ?_, fun s t w rest => step_of_faulted_ne_next, fun i s t h hf => ?_,
    fun s t h hf hreset => ?_⟩
  · rw [step_of_host_command hh] at h
    obtain ⟨-, hnone | ⟨k, -, rfl⟩⟩ := takeCommand_fault_cases h
    · exact absurd hnone ht
    · exact ⟨k, rfl⟩
  · obtain e | ⟨k, -, rfl⟩ := (exec_cases h).fault_cases
    · exact e ▸ hf
    · nofun
  · obtain ⟨-, rfl⟩ | ⟨w, rest, hh, -⟩ | ⟨a, v, rest, -, -, rfl⟩ | ⟨a, v, rest, -, -, rfl⟩ | ⟨rest, hh, -⟩ :=
      step_cases h
    · rfl
    · exact absurd h (step_of_faulted_ne_next hf hh)
    · rfl
    · rfl
    · exact absurd hh (hreset rest)

/-! ### Good states refuse nothing -/

/-- A command that needs `valid` answers if it does so in a configured block: in any other it faults (R94). -/
theorem exec_answers_of_configured {i : Instr} {s : State} (hi : i = .fill ∨ i = .isfin ∨ i = .next)
    (h : s.valid = true → ∃ t, exec i s = .next t) : ∃ t, exec i s = .next t := by
  cases hv : s.valid with
  | false => exact ⟨_, exec_of_unconfigured hi hv⟩
  | true => exact h hv

/-- FILL of a configured block answers, by R82's checks in their order. -/
theorem exec_fill_answers {s : State} (hv : s.valid = true) : ∃ t, exec .fill s = .next t := by
  by_cases hl : physLen s.cfg ≤ s.outSize
  · by_cases hn : s.cfg.count.toNat ≤ s.ledCap
    · exact ⟨_, exec_fill_of_room hv hl hn⟩
    · exact ⟨_, exec_fill_ledRange hv hl (Nat.lt_of_not_le hn)⟩
  · exact ⟨_, exec_fill_tooSmall hv (Nat.lt_of_not_le hl)⟩

/-- NEXT of a configured block in a good state answers: the invariant keeps a DOUBLE cursor in the data even, the one
place where NEXT could be refused (R26, R86). -/
theorem exec_next_answers {s : State} (hs : Inv s) (hv : s.valid = true) : ∃ t, exec .next s = .next t := by
  cases hz : zone s.cfg s.cursor.toNat with
  | prefixZone => exact ⟨_, exec_next_guard hv (.inl hz)⟩
  | dataZone =>
    obtain ⟨hlo, hhi⟩ := dataZone_bounds hz
    obtain ⟨off, hc⟩ := Nat.exists_eq_add_of_le hlo
    have hoff : off < 24 * s.cfg.count.toNat := by omega
    by_cases hl : off / 24 < s.ledCap
    · by_cases hp : s.cfg.packing = 0x00
      · exact ⟨_, exec_next_single hv hc hoff hl hp⟩
      · obtain ⟨hok, -, -, heven⟩ := hs.2 hv
        have heven := heven ((packing_of_validate_ok hok).resolve_left hp) hlo hhi
        exact ⟨_, exec_next_double hv hc hoff hl hp (by omega)⟩
    · exact ⟨_, exec_next_ledRange hv hc hoff (Nat.le_of_not_lt hl)⟩
  | suffixZone => exact ⟨_, exec_next_guard hv (.inr hz)⟩
  | doneZone => exact ⟨_, exec_next_done hv (doneZone_bounds hz)⟩

/-- Settles O39: command by command; only NEXT of a configured block needs the invariant. -/
theorem goodStatesRefuseNoCommand : Obligations.GoodStatesRefuseNoCommand := by
  intro i s hs
  cases i with
  | setpack | setpl0 | setpl1 | setfb0 | setord | setpre | setsuf | setcnt | reqlen | restart => exact ⟨_, rfl⟩
  | init =>
    obtain ⟨t, h, -⟩ := exec_init_answers s
    exact ⟨t, h⟩
  | fill => exact exec_answers_of_configured (.inl rfl) exec_fill_answers
  | isfin => exact exec_answers_of_configured (.inr (.inl rfl)) fun hv => ⟨_, exec_isfin hv⟩
  | next => exact exec_answers_of_configured (.inr (.inr rfl)) (exec_next_answers hs)

/-! ### Waiting -/

/-- Settles O44: the port performs nothing where the host has nothing to do. -/
theorem waitingBlockHoldsItsState : Obligations.WaitingBlockHoldsItsState := by
  intro s hh
  rw [step, performNext, hh]

end Sys2Proof.Machine
end

section
/-!
PROOF. Reset (spec/70_reset_and_hazards.md R108, R110): what the reset action leaves, and what INIT answers right after
it.
-/

namespace Sys2Proof.Machine

/-- The reset action resets the block and keeps the rest of the host's list (R43, R108). -/
theorem step_of_host_reset {s : State} {rest : List HostAction} (hh : s.host = .reset :: rest) :
    step s = .next (resetBlock (s.setHost rest)) := by
  simp only [step, performNext, hh, perform]

/-- The registers of R108's table, in any block just powered on. -/
theorem powerOn_registers (cap size : Nat) (led out : Memory) (h : List HostAction) :
    let s := State.powerOn cap size led out h
    s.sh = ⟨0, 0, 0, 0, 0, 0, 0, 0⟩ ∧ s.cfg = ⟨0, 0, 0, 0, 0, 0, 0, 0⟩ ∧ s.pulse0 = 0 ∧ s.pulse1 = 0 ∧
    s.valid = false ∧ s.cursor = 0 ∧ s.fault = none :=
  ⟨rfl, rfl, rfl, rfl, rfl, rfl, rfl⟩

/-- Settles O43: a reset block is one just powered on around the same memories. -/
theorem resetSetsEveryRegister : Obligations.ResetSetsEveryRegister := by
  refine ⟨fun s rest hh => ⟨_, step_of_host_reset hh, ?_⟩, powerOn_registers _ _ _ _ _⟩
  obtain ⟨hsh, hcfg, hp0, hp1, hvalid, hcursor, hfault⟩ := powerOn_registers s.ledCap s.outSize s.led s.out rest
  exact ⟨hsh, hcfg, hp0, hp1, hvalid, hcursor, hfault, fun _ => rfl, fun _ => rfl, rfl, rfl, rfl⟩

/-- The pulse length 0 of a reset block is no run mask, and the packing 0 before it passes (R69, R108). -/
theorem validate_reset : validate Settings.reset = .invalidPulseLen0 := by decide

/-- Settles O13: the shadow registers of a block just reset fail at the first pulse length, and INIT reports that check. -/
theorem initRightAfterResetFails : Obligations.InitRightAfterResetFails := by
  intro cap size led out h
  obtain ⟨t, hexec, hresp, -⟩ := exec_init_answers (State.powerOn cap size led out h)
  have hcode : validate (State.powerOn cap size led out h).sh = .invalidPulseLen0 := validate_reset
  exact ⟨t, hexec, by rw [hresp, hcode]; rfl⟩

end Sys2Proof.Machine
end

section
/-!
PROOF. Where the model stops or refuses by its own choice (log entries 5, 7 and 11): an odd step in DOUBLE data, a
command to a faulted block, a host write outside the memories.
-/

namespace Sys2Proof.Machine

/-- A DOUBLE data step at an odd offset is refused: eight bits to a channel make its bit index odd too (R86, U9). -/
theorem exec_next_double_odd {s : State} {off : Nat} (hv : s.valid = true)
    (hc : s.cursor.toNat = s.cfg.prefixLen.toNat + off) (hoff : off < 24 * s.cfg.count.toNat)
    (hl : off / 24 < s.ledCap) (hp : s.cfg.packing ≠ 0x00) (hodd : off % 2 = 1) :
    exec .next s = .refused .oddDoubleStep := by
  have hbit : off % 8 % 2 ≠ 0 := by omega
  rw [exec_next_data hv hc hoff, nextData, if_neg (Nat.not_le_of_lt hl), if_neg hp, if_neg hbit]

/-- Settles O26: in a good state every command answers, so none is refused. -/
theorem oddDoubleStepIsRefused : Obligations.OddDoubleStepIsRefused := by
  refine ⟨fun s off hv hp hc hoff hl hodd => exec_next_double_odd hv hc hoff hl hp hodd, fun s hs hrefused => ?_⟩
  obtain ⟨t, hnext⟩ := goodStatesRefuseNoCommand .next s hs
  cases hnext.symm.trans hrefused

/-- A faulted block takes no word, whatever it decodes to (R23, R95). -/
theorem takeCommand_of_faulted {s : State} {k : FaultKind} {old : Word} (w : Word) (hf : s.fault = some (k, old)) :
    takeCommand w s = .fault (.halted k old) := by
  rw [takeCommand, hf]

/-- Settles O34: handing the word over leaves the recorded fault, which stops the port. -/
theorem faultedBlockTakesNoCommand : Obligations.FaultedBlockTakesNoCommand := fun s w _ _ rest hf hh =>
  (step_of_host_command hh).trans (takeCommand_of_faulted (s := s.setHost rest) w hf)

theorem hostWriteLed_of_ge {s : State} {a : Nat} (v : Byte) (ha : 3 * s.ledCap ≤ a) :
    hostWriteLed a v s = .fault (.noSuchLedAddress a) :=
  if_neg (Nat.not_lt_of_le ha)

theorem hostWriteOut_of_ge {s : State} {a : Nat} (v : Byte) (ha : s.outSize ≤ a) :
    hostWriteOut a v s = .fault (.noSuchOutAddress a) :=
  if_neg (Nat.not_lt_of_le ha)

/-- Settles O47: taking the action off the host's list leaves both sizes, and past them there is no byte to write. -/
theorem hostWriteOutsideMemoryStops : Obligations.HostWriteOutsideMemoryStops := fun s _ v rest =>
  ⟨fun hh ha => (step_of_host_writeLed hh).trans (hostWriteLed_of_ge (s := s.setHost rest) v ha),
    fun hh ha => (step_of_host_writeOut hh).trans (hostWriteOut_of_ge (s := s.setHost rest) v ha)⟩

end Sys2Proof.Machine
end
